-- ==== Sys2Proof/Config.lean ====
section
/-!
DEFINITION. The configuration of the block (00_scope.md R7, R9, R19): the widths and bounds the types are built on, the
parameters the spec leaves OPEN, and the free values of the model. The literals that no type depends on are named in
Machine/Bits.lean. `ERROR_LIMIT` and `DUP_ID_POLICY` are operands of `SETUP` held in registers (R43), the numbers of
ids, ticks and counters are natural numbers and the queues are lists (decision D3), so no constant stands for them here.
-/

namespace Sys2Proof

/-- `DUP_ID_POLICY` (R7, R43, R199): what the arbiter does when two contenders hold the same identifier. -/
inductive DupIdPolicy where
  /-- the default: the round has no defined outcome and is refused -/
  | refuse
  /-- the literal reading of DOC00 step 2d -/
  | lastDominant
  deriving DecidableEq, Repr, Inhabited

namespace Config

/-- `ID_BITS` (R7): the width of an identifier, and of a priority (R22). -/
abbrev idBits : Nat := 11

/-- `CRC_BITS` (R7): the width of the CRC register. -/
abbrev crcWidth : Nat := 16

/-- `DATA_MAX` (R7, decision D4): the largest payload in bytes. -/
abbrev dataMax : Nat := 15

/-- The value of `N_NODES`, which the spec leaves OPEN (R7), in `State.reset`, the one instance of `State.resetOf` that
the host's interface asks for. No operation reads it: the number of slots is the length of the state's slot list.
DESIGN CHOICE, log entry 1. -/
abbrev nNodes : Nat := 16

/-- The reference generator's payload lengths (R253, R9: 5 to 10 characters). The generator is outside the block, and
nothing in the block reads them. -/
abbrev payloadMin : Nat := 5

/-- See `payloadMin`. -/
abbrev payloadMax : Nat := 10

/-- The reference generator's corruption probability for a configured fraction k/n (R253, R9): 1/(n+1). Nothing in the
block reads it: whether a frame was corrupted is a choice of whoever makes the frame lists. -/
def corruptionProbability (n : Nat) : Rat := 1 / (n + 1)

/-- What `cfg.errorLimit` holds between `RESET` and `SETUP`: "unspecified until `SETUP` writes them" (R50). A free value,
fresh at each `RESET` (log entry 3). -/
opaque freeErrorLimit : Nat → Nat

/-- What `cfg.dupIdPolicy` holds between `RESET` and `SETUP` (R50). A free value (log entry 3). -/
opaque freeDupIdPolicy : Nat → DupIdPolicy

end Config

end Sys2Proof
end

