-- ==== Sys2Proof/Word.lean ====
section
/-!
DEFINITION. The word types of the CAN-Bus-Simulation CORE. Bit strings follow 00_scope.md R10: index 0 is the first
bit in transmission order and the most significant bit of a number; the character '1' (recessive) is `true`, the
character '0' (dominant) is `false`. Quantities whose width the spec leaves open (R7: ids, ticks, times, counters) are
natural numbers; so are a node slot index `k` (R12, R94) and a node id (R30).
-/

namespace Sys2Proof

/-- A payload byte (R27: "each 8 bits (0..255)"). -/
abbrev Byte := BitVec 8

/-- The CRC register (R28, R111: width 16). -/
abbrev CrcWord := BitVec Config.crcWidth

/-- A bit string (R10). `true` is '1' (recessive), `false` is '0' (dominant). -/
abbrev Bits := List Bool

end Sys2Proof
end

