-- ==== Sys2Proof/Machine/Bits.lean ====
section
/-!
DEFINITION. Bit strings and numbers (00_scope.md R10, R11) and the literals the block is built on, each a named constant
(R9: "a model should keep each as a named constant so that a later audit changes one definition").
-/

namespace Sys2Proof.Machine

/-- `bin_N(v)` (R11): N characters, the most significant bit first. -/
def bin : Nat → Nat → Bits
  | 0, _ => []
  | n + 1, v => v.testBit n :: bin n v

/-- `val(s)` (R11): the number a bit string stands for. -/
def val (s : Bits) : Nat := s.foldl (fun acc b => 2 * acc + b.toNat) 0

/-- The `n` characters of `s` from index `i` on: `s[i .. i+n-1]` (R10). -/
def field (s : Bits) (i n : Nat) : Bits := (s.drop i).take n

/-- `PRIO_MAX` (R7). -/
def prioMax : Nat := 2047

/-- `DLC_BITS` (R7). -/
def dlcBits : Nat := 4

/-- The length of the run of equal bits that a stuff bit follows (R24). -/
def stuffRun : Nat := 5

/-- `CRC_POLY` (R7): x^16 + x^12 + x^5 + 1, with the x^16 term. -/
def crcPoly : BitVec (Config.crcWidth + 1) := 0x11021

/-- `CRC_INIT` (R7). -/
def crcInit : CrcWord := 0xFFFF

/-- `rtr`, `ide`, `reserved` (R25, R89): each the constant `"0"`. -/
def controlBit : Bits := [false]

/-- `ack` (R29, R89): `"11"`. -/
def ackBits : Bits := [true, true]

/-- `eof` (R29, R89): `"1111111"`. -/
def eofBits : Bits := [true, true, true, true, true, true, true]

/-- `ifs` (R29, R89): `"111"`. -/
def ifsBits : Bits := [true, true, true]

/-- The three control bits of a frame string (R81). -/
def controlBits : Bits := controlBit ++ controlBit ++ controlBit

/-- The fixed end of a frame string (R81). -/
def trailerBits : Bits := ackBits ++ eofBits ++ ifsBits

end Sys2Proof.Machine
end

