-- ==== Sys2Proof/Machine/Crc.lean ====
section
/-!
DEFINITION. The CRC-16 generator (40_crc16.md): the functions behind `CRC16` and `CRC_BYTE`.
-/

namespace Sys2Proof.Machine

/-- One of the eight shifts of R113. The generator polynomial without its x^16 term is XORed in when bit 15 was set. -/
def crcShift (r : CrcWord) : CrcWord :=
  if r.msb then (r <<< 1) ^^^ crcPoly.setWidth Config.crcWidth else r <<< 1

def crcShifts : Nat → CrcWord → CrcWord
  | 0, r => r
  | n + 1, r => crcShifts n (crcShift r)

/-- `CRC_BYTE(crc, b)` (R113): the byte is XORed into the high byte of the register, then eight shifts. -/
def crcByte (crc : CrcWord) (b : Byte) : CrcWord :=
  crcShifts 8 (crc ^^^ (b.setWidth Config.crcWidth <<< 8))

/-- `CRC16(bytes)` (R112). -/
def crc16 (bytes : List Byte) : CrcWord := bytes.foldl crcByte crcInit

end Sys2Proof.Machine
end

