-- ==== Sys2Proof/Syntax.lean ====
section
/-!
DEFINITION. The operations of the block as syntax: one constructor of `Instr` per row of the command table
(30_encoding.md R93), the operand forms (the table's "format" column, R94), and a command as the host issues it: the
5-bit code with its operands carried beside it.
-/

namespace Sys2Proof

/-- A Frame record (10_state.md R21 to R29). `time`, `priority`, `data` and `crc` are the independent fields; the
derived and the constant fields (`arbitrationId`, `stuffBit`, `rtr`, `ide`, `reserved`, `dlc`, `dlcString`, `dataBits`,
`ack`, `eof`, `ifs`, `frame`) are functions of these in Machine/FrameModel.lean: R23 "can be held as wires", R25 and R29
"hardwired", R29 "a model may compute it on demand instead of storing it". -/
structure Frame where
  time : Nat
  priority : BitVec Config.idBits
  data : List Byte
  crc : CrcWord
  deriving DecidableEq, Repr

/-- A node specification, element of `SETUP`'s operand list (R241): `(id, listeners, frames)`. -/
structure NodeSpec where
  id : Nat
  listeners : List Nat
  frames : List Frame
  deriving DecidableEq, Repr

/-- The operations of the command table (R93), in the order of their codes, with their operands (R94). -/
inductive Instr where
  | reset
  | crc16 (bytes : List Byte)
  | crcByte (crc : CrcWord) (b : Byte)
  | construct (time : Nat) (data : List Byte) (priority : Int)
  | encode (f : Frame)
  | decode (bits : Bits)
  | corrupt (f : Frame) (byteIndex bitIndex : Nat)
  | repair (f : Frame)
  | isvalid (f : Frame)
  | nodeInit (k : Nat) (id : Nat) (listeners : List Nat) (frames : List Frame)
  | enterArbitration (k : Nat)
  | enterIdle (k : Nat)
  | enterSending (k : Nat)
  | enterReceiving (k : Nat)
  | transmit (k : Nat)
  | receive (k : Nat)
  | ackSuccess (k : Nat)
  | ackFailure (k : Nat)
  | evict (k : Nat)
  | arbitrate
  | round
  | setup (errorLimit : Nat) (dupIdPolicy : DupIdPolicy) (nodeSpecs : List NodeSpec)
  | step
  | run
  | pause
  | stop
  | resume
  deriving DecidableEq, Repr

/-- The operands that stand beside a command code, one constructor per "format" of the command table. -/
inductive Args where
  /-- CMD0 -/
  | none
  /-- CMD_BYTES -/
  | bytes (bytes : List Byte)
  /-- CMD_CRC_BYTE -/
  | crcByte (crc : CrcWord) (b : Byte)
  /-- CMD_FRAME_NEW -/
  | frameNew (time : Nat) (data : List Byte) (priority : Int)
  /-- CMD_FRAME -/
  | frame (f : Frame)
  /-- CMD_BITS -/
  | bits (bits : Bits)
  /-- CMD_FRAME_DRAW -/
  | frameDraw (f : Frame) (byteIndex bitIndex : Nat)
  /-- CMD_NODE_NEW; the listener set comes as a list in any order, repeats allowed -/
  | nodeNew (k : Nat) (id : Nat) (listeners : List Nat) (frames : List Frame)
  /-- CMD_NODE -/
  | node (k : Nat)
  /-- CMD_SETUP; each listener set comes as a list in any order, repeats allowed -/
  | setup (errorLimit : Nat) (dupIdPolicy : DupIdPolicy) (nodeSpecs : List NodeSpec)
  deriving DecidableEq, Repr

/-- A command as the host issues it: the code `op[4:0]` (R93) and the operands "carried beside the code, not packed into
it" (opcode_table.json; R94 leaves the carrier open). -/
structure Command where
  op : BitVec 5
  args : Args
  deriving DecidableEq, Repr

end Sys2Proof
end

