-- ==== Sys2Proof/Machine/FrameModel.lean ====
section
/-!
DEFINITION. The Frame Model (41_frame.md, 30_encoding.md sections 1 and 2): the derived fields of a frame record, the frame
encoder and decoder, and what `CONSTRUCT`, `CORRUPT`, `REPAIR` and `ISVALID` compute.
-/

namespace Sys2Proof.Machine

/-- The stuff bit after an identifier (R85): the complement of a run of five equal bits at its end, else empty. -/
def stuffOf (id : Bits) : Bits :=
  if field id (Config.idBits - stuffRun) stuffRun = List.replicate stuffRun false then [true]
  else if field id (Config.idBits - stuffRun) stuffRun = List.replicate stuffRun true then [false]
  else []

/-- `f.arbitrationId` (R23, R84). -/
def arbitrationId (f : Frame) : Bits := bin Config.idBits f.priority.toNat

/-- `f.stuffBit` (R24, R85). -/
def stuffBit (f : Frame) : Bits := stuffOf (arbitrationId f)

/-- `f.dlc` (R26): the number of data bytes. -/
def dlc (f : Frame) : Nat := f.data.length

/-- `f.dlcString` (R26, R86). -/
def dlcString (f : Frame) : Bits := bin dlcBits (dlc f)

/-- `f.dataBits` (R27, R87): the bytes in payload order, each most significant bit first. -/
def dataBits (f : Frame) : Bits := f.data.flatMap fun b => bin 8 b.toNat

/-- `crcBits` (R88): the stored crc, sixteen characters. -/
def crcBits (f : Frame) : Bits := bin Config.crcWidth f.crc.toNat

/-- `ENCODE(f)` (R81, R135): the bit string `f.frame`. -/
def frameBits (f : Frame) : Bits :=
  arbitrationId f ++ stuffBit f ++ controlBit ++ controlBit ++ controlBit ++ dlcString f ++ dataBits f ++ crcBits f
    ++ ackBits ++ eofBits ++ ifsBits

/-- The fields `DECODE` returns (R138). -/
structure DecodedFields where
  priority : BitVec Config.idBits
  data : List Byte
  crc : CrcWord
  deriving DecidableEq, Repr

/-- The data bytes of a frame string: `n` bytes of eight bits from index `i` on. -/
def readBytes (s : Bits) (i : Nat) : Nat → List Byte
  | 0 => []
  | n + 1 => BitVec.ofNat 8 (val (field s i 8)) :: readBytes s (i + 8) n

/-- Where `dlcString` starts in a frame string with a stuff bit of length k (R82). -/
def dlcAt (k : Nat) : Nat := Config.idBits + k + controlBits.length

/-- Where `dataBits` starts. -/
def dataAt (k : Nat) : Nat := dlcAt k + dlcBits

/-- Where `crcBits` starts, after n data bytes. -/
def crcAt (k n : Nat) : Nat := dataAt k + 8 * n

/-- Where the trailer starts. -/
def trailerAt (k n : Nat) : Nat := crcAt k n + Config.crcWidth

/-- The length of a frame string (R83). -/
def frameLength (k n : Nat) : Nat := trailerAt k n + trailerBits.length

/-- `DECODE(s)` (R92, R138); `none` where R138 raises `DecodeError`. The shortest frame string, one data byte and no
stuff bit, has 54 bits. -/
def decodeFrame (s : Bits) : Option DecodedFields :=
  let id := field s 0 Config.idBits
  let st := stuffOf id
  let k := st.length
  let len := val (field s (dlcAt k) dlcBits)
  if s.length < frameLength 0 1 then none
  else if field s Config.idBits k ≠ st then none
  else if field s (Config.idBits + k) controlBits.length ≠ controlBits then none
  else if len = 0 then none
  else if s.length ≠ frameLength k len then none
  else if field s (trailerAt k len) trailerBits.length ≠ trailerBits then none
  else some
    { priority := BitVec.ofNat Config.idBits (val id)
      data := readBytes s (dataAt k) len
      crc := BitVec.ofNat Config.crcWidth (val (field s (crcAt k len) Config.crcWidth)) }

/-- The frame `CONSTRUCT` builds of legal operands (R131): `crc = CRC16(data)`. -/
def newFrame (time : Nat) (data : List Byte) (priority : Nat) : Frame :=
  { time := time, priority := BitVec.ofNat Config.idBits priority, data := data, crc := crc16 data }

/-- `CORRUPT(f, byteIndex, bitIndex)` (R145): one bit of one data byte flipped (bit 0 the least significant), `crc` left
as it is. -/
def corruptFrame (f : Frame) (byteIndex bitIndex : Nat) : Frame :=
  { f with data := f.data.modify byteIndex fun b => b ^^^ ((1 : Byte) <<< bitIndex) }

/-- `REPAIR(f)` (R148). -/
def repairFrame (f : Frame) : Frame := { f with crc := crc16 f.data }

/-- `ISVALID(f)` (R150). -/
def frameValid (f : Frame) : Bool := crc16 f.data == f.crc

end Sys2Proof.Machine
end

