-- ==== Sys2Proof/WellFormed.lean ====
section
/-!
DEFINITION. Which operands are operands at all (30_encoding.md R94): a Frame operand is a frame record (10_state.md
R26: 1 to 15 data bytes), the draws of `CORRUPT` lie in their ranges (41_frame.md R145), a listener set has one
canonical list. Conditions for which an operation has an answer of its own (a priority out of range, an empty or overlong
payload in `CONSTRUCT`, an error limit of 0, a node listening to itself) are NOT checked here.
-/

namespace Sys2Proof

/-- `DATA_MAX` (R7, decision D4) as far as a frame record goes: `1 <= dlc <= 15` (R26). -/
def Frame.wf (f : Frame) : Bool := decide (1 ≤ f.data.length) && decide (f.data.length ≤ Config.dataMax)

/-- The canonical list of a set of ids: strictly ascending. -/
def ascending : List Nat → Bool
  | [] => true
  | [_] => true
  | a :: b :: rest => decide (a < b) && ascending (b :: rest)

def NodeSpec.wf (n : NodeSpec) : Bool := ascending n.listeners && n.frames.all Frame.wf

/-- Well-formedness of an operation's operands. -/
def Instr.wf : Instr → Bool
  | .reset => true
  | .crc16 _ => true
  | .crcByte _ _ => true
  | .construct _ _ _ => true
  | .encode f => f.wf
  | .decode _ => true
  | .corrupt f byteIndex bitIndex => f.wf && decide (byteIndex < f.data.length) && decide (bitIndex < 8)
  | .repair f => f.wf
  | .isvalid f => f.wf
  | .nodeInit _ _ listeners frames => ascending listeners && frames.all Frame.wf
  | .enterArbitration _ => true
  | .enterIdle _ => true
  | .enterSending _ => true
  | .enterReceiving _ => true
  | .transmit _ => true
  | .receive _ => true
  | .ackSuccess _ => true
  | .ackFailure _ => true
  | .evict _ => true
  | .arbitrate => true
  | .round => true
  | .setup _ _ nodeSpecs => nodeSpecs.all NodeSpec.wf
  | .step => true
  | .run => true
  | .pause => true
  | .stop => true
  | .resume => true

end Sys2Proof
end

