-- ==== Sys2Proof/Decode.lean ====
section
/-!
DEFINITION. From a command (code and operands) to an operation, and back (30_encoding.md R93, R94). The decoder is total:
codes 0x1B to 0x1F are rejected as reserved, operands of another form than the code's row as such. A listener set is
brought into its canonical list here, so no operation sees an order or a repeat the host happened to write.
-/

namespace Sys2Proof

/-- Why a command is not an operation. -/
inductive CommandReject where
  /-- a code 0x1B to 0x1F: "reserved: a model refuses them" (R93, X10) -/
  | reservedCode
  /-- the operands beside the code are not of the form of the code's row (R94) -/
  | operandForm
  deriving DecidableEq, Repr

/-- Add an id to a set held as its strictly ascending list. -/
def insertId (x : Nat) : List Nat → List Nat
  | [] => [x]
  | y :: ys => if x < y then x :: y :: ys else if x = y then y :: ys else y :: insertId x ys

/-- The set of the ids in a list, as its strictly ascending list. -/
def canonSet (ids : List Nat) : List Nat := ids.foldr insertId []

def canonSpec (n : NodeSpec) : NodeSpec := { n with listeners := canonSet n.listeners }

def takeNone (i : Instr) : Args → Except CommandReject Instr
  | .none => .ok i
  | _ => .error .operandForm

def takeFrame (mk : Frame → Instr) : Args → Except CommandReject Instr
  | .frame f => .ok (mk f)
  | _ => .error .operandForm

def takeNode (mk : Nat → Instr) : Args → Except CommandReject Instr
  | .node k => .ok (mk k)
  | _ => .error .operandForm

def takeBytes : Args → Except CommandReject Instr
  | .bytes bs => .ok (.crc16 bs)
  | _ => .error .operandForm

def takeCrcByte : Args → Except CommandReject Instr
  | .crcByte crc b => .ok (.crcByte crc b)
  | _ => .error .operandForm

def takeFrameNew : Args → Except CommandReject Instr
  | .frameNew time data priority => .ok (.construct time data priority)
  | _ => .error .operandForm

def takeBits : Args → Except CommandReject Instr
  | .bits bits => .ok (.decode bits)
  | _ => .error .operandForm

def takeFrameDraw : Args → Except CommandReject Instr
  | .frameDraw f byteIndex bitIndex => .ok (.corrupt f byteIndex bitIndex)
  | _ => .error .operandForm

def takeNodeNew : Args → Except CommandReject Instr
  | .nodeNew k id listeners frames => .ok (.nodeInit k id (canonSet listeners) frames)
  | _ => .error .operandForm

def takeSetup : Args → Except CommandReject Instr
  | .setup errorLimit dupIdPolicy nodeSpecs => .ok (.setup errorLimit dupIdPolicy (nodeSpecs.map canonSpec))
  | _ => .error .operandForm

/-- The command table of R93, row by row. -/
def decode (op : BitVec 5) (args : Args) : Except CommandReject Instr :=
  match op.toNat with
  | 0x00 => takeNone .reset args
  | 0x01 => takeBytes args
  | 0x02 => takeCrcByte args
  | 0x03 => takeFrameNew args
  | 0x04 => takeFrame .encode args
  | 0x05 => takeBits args
  | 0x06 => takeFrameDraw args
  | 0x07 => takeFrame .repair args
  | 0x08 => takeFrame .isvalid args
  | 0x09 => takeNodeNew args
  | 0x0A => takeNode .enterArbitration args
  | 0x0B => takeNode .enterIdle args
  | 0x0C => takeNode .enterSending args
  | 0x0D => takeNode .enterReceiving args
  | 0x0E => takeNode .transmit args
  | 0x0F => takeNode .receive args
  | 0x10 => takeNode .ackSuccess args
  | 0x11 => takeNode .ackFailure args
  | 0x12 => takeNode .evict args
  | 0x13 => takeNone .arbitrate args
  | 0x14 => takeNone .round args
  | 0x15 => takeSetup args
  | 0x16 => takeNone .step args
  | 0x17 => takeNone .run args
  | 0x18 => takeNone .pause args
  | 0x19 => takeNone .stop args
  | 0x1A => takeNone .resume args
  | _ => .error .reservedCode

/-- The command that names an operation (R93, R94). -/
def encode : Instr → Command
  | .reset => ⟨0x00, .none⟩
  | .crc16 bs => ⟨0x01, .bytes bs⟩
  | .crcByte crc b => ⟨0x02, .crcByte crc b⟩
  | .construct time data priority => ⟨0x03, .frameNew time data priority⟩
  | .encode f => ⟨0x04, .frame f⟩
  | .decode bits => ⟨0x05, .bits bits⟩
  | .corrupt f byteIndex bitIndex => ⟨0x06, .frameDraw f byteIndex bitIndex⟩
  | .repair f => ⟨0x07, .frame f⟩
  | .isvalid f => ⟨0x08, .frame f⟩
  | .nodeInit k id listeners frames => ⟨0x09, .nodeNew k id listeners frames⟩
  | .enterArbitration k => ⟨0x0A, .node k⟩
  | .enterIdle k => ⟨0x0B, .node k⟩
  | .enterSending k => ⟨0x0C, .node k⟩
  | .enterReceiving k => ⟨0x0D, .node k⟩
  | .transmit k => ⟨0x0E, .node k⟩
  | .receive k => ⟨0x0F, .node k⟩
  | .ackSuccess k => ⟨0x10, .node k⟩
  | .ackFailure k => ⟨0x11, .node k⟩
  | .evict k => ⟨0x12, .node k⟩
  | .arbitrate => ⟨0x13, .none⟩
  | .round => ⟨0x14, .none⟩
  | .setup errorLimit dupIdPolicy nodeSpecs => ⟨0x15, .setup errorLimit dupIdPolicy nodeSpecs⟩
  | .step => ⟨0x16, .none⟩
  | .run => ⟨0x17, .none⟩
  | .pause => ⟨0x18, .none⟩
  | .stop => ⟨0x19, .none⟩
  | .resume => ⟨0x1A, .none⟩

/-- The least frame record: every number 0 and one data byte 0x00, since a frame record has at least one (R26). -/
def zeroFrame : Frame := ⟨0, 0, [0], 0⟩

/-- The operands of zeros of a code's row: every number 0, every sequence and set empty, a Frame operand the least frame
record. Used where the opcode table gives a row no operand bits (log entry 5). -/
def zeroArgs (op : BitVec 5) : Args :=
  match op.toNat with
  | 0x01 => .bytes []
  | 0x02 => .crcByte 0 0
  | 0x03 => .frameNew 0 [] 0
  | 0x04 => .frame zeroFrame
  | 0x05 => .bits []
  | 0x06 => .frameDraw zeroFrame 0 0
  | 0x07 => .frame zeroFrame
  | 0x08 => .frame zeroFrame
  | 0x09 => .nodeNew 0 0 [] []
  | 0x0A => .node 0
  | 0x0B => .node 0
  | 0x0C => .node 0
  | 0x0D => .node 0
  | 0x0E => .node 0
  | 0x0F => .node 0
  | 0x10 => .node 0
  | 0x11 => .node 0
  | 0x12 => .node 0
  | 0x15 => .setup 0 .refuse []
  | _ => .none

/-- The command of an opcode-table word: the code is bits 4..0 of the word (mask 0x1F), the operands are those of
zeros. -/
def tableCommand (nbits w : Nat) : Command :=
  let op := BitVec.ofNat 5 (w % 2 ^ nbits)
  ⟨op, zeroArgs op⟩

/-- The operation the decoder reads from an opcode-table word. -/
def decodeTableWord (nbits w : Nat) : Option Instr :=
  match decode (tableCommand nbits w).op (tableCommand nbits w).args with
  | .ok i => some i
  | .error _ => none

end Sys2Proof
end

