-- ==== Sys2Proof/Machine/State.lean ====
section
/-!
DEFINITION. The state of the block, as plain data (10_state.md R20 to R55), the reasons a step can stop, and the state
after reset. INVENTORY.md, "State", lists every field with the rule that names it.
-/

namespace Sys2Proof.Machine

/-- `node[k].status` (R34): the four values of a connected node and the terminal one. -/
inductive Status where
  | idle
  | arbitrating
  | sending
  | receiving
  | evicted
  deriving DecidableEq, Repr

/-- `seq.phase` (R44, R98). -/
inductive Phase where
  | idle
  | eligibility
  | arbitration
  | transmission
  | acknowledgment
  | outcome
  | evictionCheck
  | roundReset
  deriving DecidableEq, Repr

/-- The error classes of 60_exceptions.md R261. -/
inductive ErrorClass where
  | constructionError
  | frameCorruption
  | acknowledgmentFailure
  | busOff
  | decodeError
  deriving DecidableEq, Repr

/-- The names of the ten fields of the bus trace (30_encoding.md R90). -/
inductive FieldName where
  | arbRemaining
  | stuff
  | rtr
  | ide
  | reserved
  | data
  | crc
  | ack
  | eof
  | ifs
  deriving DecidableEq, Repr

/-- The event kinds (R101) and the one this spec adds, `StatusChanged` (R102). -/
inductive EventKind where
  | nodeConnected (id : Nat)
  | arbitrationStarted (ids : List Nat)
  | arbitrationBitResult (id : Nat) (bitIndex : Nat) (bitValue : Bool)
  | arbitrationWon (id : Nat) (bitIndex : Nat)
  | frameFieldSent (id : Nat) (fieldName : FieldName) (fieldBits : Bits)
  | acknowledgmentResult (winnerId : Nat) (success : Bool)
  | transmitFailure (id : Nat) (newErrorCount : Nat)
  | nodeEvicted (id : Nat)
  | roundReset
  | statusChanged (id : Nat) (status : Status)
  deriving DecidableEq, Repr

/-- An event record (R100): the tick (`bus.tick` at the time of emission) and the kind with its arguments. -/
structure Event where
  tick : Nat
  kind : EventKind
  deriving DecidableEq, Repr

/-- A node record (R30 to R35). -/
structure Node where
  id : Nat
  /-- the frames behind the head, oldest first (R31) -/
  pending : List Frame
  /-- the head frame, or `none` for `null` (R32) -/
  next : Option Frame
  listeners : List Nat
  status : Status
  transmitErrors : Nat
  receiveErrors : Nat
  deriving DecidableEq, Repr

/-- The result an operation returns to the host (the "result" column of R93; R100 "besides operation results"). -/
inductive Result where
  /-- the row has no result -/
  | none
  /-- CRC16, CRC_BYTE -/
  | word (value : CrcWord)
  /-- CONSTRUCT, CORRUPT, REPAIR -/
  | frame (f : Frame)
  /-- ENCODE -/
  | bits (s : Bits)
  /-- DECODE: `(priority, data, crc)` -/
  | fields (priority : BitVec Config.idBits) (data : List Byte) (crc : CrcWord)
  /-- ISVALID -/
  | valid (b : Bool)
  /-- RECEIVE: the acknowledgment indicator, `true` dominant, `false` empty (R99) -/
  | ack (dominant : Bool)
  /-- ENTER_*: what stands for the description string (R102, decision D31) -/
  | description (id : Nat) (status : Status)
  /-- ARBITRATE: the winner's slot or none, and `wonAt` -/
  | arbitration (winner : Option Nat) (wonAt : Nat)
  /-- the operation ended with this error class (R14 `raise`) -/
  | error (cls : ErrorClass)
  deriving DecidableEq, Repr

/-- The pause and stop requests that reach the block while `RUN` is looping, before one iteration boundary (R249,
R270). -/
structure Arrival where
  pause : Bool
  stop : Bool
  deriving DecidableEq, Repr

/-- The state of the block. -/
structure State where
  /-- the node slots; `none` is an unoccupied slot; the length is `N_NODES` (R20, R50) -/
  nodes : List (Option Node)
  /-- `bus.connected` (R40): slots in order of insertion -/
  busConnected : List Nat
  /-- `bus.onBus` (R40): a frame or `null` -/
  busOnBus : Option Frame
  /-- `bus.tick` (R40) -/
  busTick : Nat
  /-- `drv.tick` (R42) -/
  drvTick : Nat
  /-- `drv.pauseReq` (R42) -/
  drvPauseReq : Bool
  /-- `drv.stopReq` (R42) -/
  drvStopReq : Bool
  /-- `drv.setupDone` (R42) -/
  drvSetupDone : Bool
  /-- the model's own: a `RUN` has stepped and stands before its next iteration boundary (log entry 7) -/
  drvRunning : Bool
  /-- `cfg.errorLimit` (R43) -/
  cfgErrorLimit : Nat
  /-- `cfg.dupIdPolicy` (R43) -/
  cfgDupIdPolicy : DupIdPolicy
  /-- `seq.phase` (R44) -/
  seqPhase : Phase
  /-- `seq.bitIndex` (R44), 0 to 11 -/
  seqBitIndex : Nat
  /-- `seq.winner` (R44): a slot or none -/
  seqWinner : Option Nat
  /-- `seq.wonAt` (R44), 0 to 11 -/
  seqWonAt : Nat
  /-- `seq.ackSeen` (R44) -/
  seqAckSeen : Bool
  /-- the event stream (R46), oldest first -/
  events : List Event
  /-- the model's own output port: the result of the last operation (log entry 6) -/
  result : Result
  /-- the model's own input port: the commands the host has issued, next first (log entry 4) -/
  commands : List Command
  /-- the model's own input port: requests that reach a looping `RUN`, one entry per iteration boundary (log entry 7) -/
  arrivals : List Arrival
  /-- the model's own input strap: the host issues node-level commands and `ROUND` directly after `SETUP` and "accepts the
  loss of the invariants" (R296, R160; log entry 10) -/
  hostDirect : Bool
  /-- the model's own: how many times a free value has been drawn (log entry 3) -/
  freeCount : Nat
  deriving DecidableEq, Repr

/-- The reasons a step can fault: none. "none propagate as aborts" (R260): every error class of the block is handled
inside the block and the operation goes on (R261, R273), so no step of this machine faults. -/
inductive Fault where
  deriving DecidableEq, Repr

/-- The reasons the model gives a command no next state (R14 `refuse`, R268). All are safe: the model stops where a block
could go on in a way the spec does not give. -/
inductive Refusal where
  /-- raised by exec's arm of an operation without a meaning; safe -/
  | notModelled (mnemonic : String)
  /-- raised by the fetch on codes 0x1B to 0x1F (R93, X10); safe -/
  | reservedCommand
  /-- raised by the fetch when the operands beside a code are not of its form (R94); safe -/
  | operandForm
  /-- raised by the fetch when an operand is no frame record, or a draw lies outside its range (R26, R145); safe -/
  | illFormedOperand
  /-- raised by the fetch on a node-level command or `ROUND` after `SETUP`, from a host that does not accept the loss of
  the invariants: "direct node commands during a run" (R268, R160, R298, X13); safe -/
  | directNodeCommand
  /-- raised by the fetch when `seq.phase` is not IDLE (R249), and by RESET (R240); never in a reachable state; safe -/
  | sequencerBusy
  /-- raised by a node operation whose slot index holds no node; the spec gives it no meaning (log entry 9); safe -/
  | noNodeInSlot
  /-- raised by NODE_INIT on a slot index that is not below the number of slots (R7, R161); safe -/
  | noSuchSlot
  /-- raised by NODE_INIT and SETUP when the slot is occupied (R161, precondition); safe -/
  | slotOccupied
  /-- raised by CONSTRUCT on more than 15 data bytes (R131, X1); safe -/
  | payloadTooLong
  /-- raised by NODE_INIT and SETUP when a node lists its own id (R161, R241, X2); safe -/
  | selfListener
  /-- raised by TRANSMIT when the status is not Sending or there is no head frame (R166, X3); safe -/
  | transmitPrecondition
  /-- raised by RECEIVE when no frame is on the bus (R171, X4); safe -/
  | receiveEmptyBus
  /-- raised by ACK_SUCCESS and ACK_FAILURE when there is no head frame (R167, R169, X5); safe -/
  | ackWithoutFrame
  /-- raised by ARBITRATE, ROUND, STEP and RUN under policy `refuse` when contenders with one identifier are left after
  index 10 (R199, X6); safe -/
  | duplicateIds
  /-- raised by SETUP after a SETUP without RESET (R241, X7); safe -/
  | setupTwice
  /-- raised by SETUP when two node specs have one id (R241, X8); safe -/
  | duplicateNodeId
  /-- raised by SETUP on more node specs than slots (R241, precondition); safe -/
  | tooManyNodes
  /-- raised by SETUP on an error limit of 0 (R241, X9); safe -/
  | badErrorLimit
  /-- raised by ROUND, STEP and RUN before SETUP (R210, R243, R244, X11); safe -/
  | notSetUp
  /-- raised by ARBITRATE when a connected node is not Idle or a frame is on the bus (R195, precondition); safe -/
  | arbitratePrecondition
  /-- raised by ROUND and STEP when a connected node is not Idle, a frame is on the bus or the phase is not IDLE (R210,
  precondition); safe -/
  | roundPrecondition
  deriving DecidableEq, Repr

/-- The state after reset of a block with n node slots (R50, R7). `cfg.errorLimit` and `cfg.dupIdPolicy`, which R50
leaves unspecified, hold 0 and the default policy (log entry 2). -/
def State.resetOf (n : Nat) : State where
  nodes := List.replicate n none
  busConnected := []
  busOnBus := none
  busTick := 0
  drvTick := 0
  drvPauseReq := false
  drvStopReq := false
  drvSetupDone := false
  drvRunning := false
  cfgErrorLimit := 0
  cfgDupIdPolicy := .refuse
  seqPhase := .idle
  seqBitIndex := 0
  seqWinner := none
  seqWonAt := 0
  seqAckSeen := false
  events := []
  result := .none
  commands := []
  arrivals := []
  hostDirect := false
  freeCount := 0

/-- The state after reset of the block with `Config.nNodes` slots (log entry 1). -/
def State.reset : State := State.resetOf Config.nNodes

end Sys2Proof.Machine
end

