-- ==== Sys2Proof/Machine/Ops.lean ====
section
/-!
DEFINITION. The named operations over the state: reading and writing a node record, emitting an event (00_scope.md R14),
the queue primitives (R13), sequencing, and taking an error (60_exceptions.md R261, R273). The block has no addressed
memory (20_memory.md R60): what it stores is reached by name.
-/

namespace Sys2Proof.Machine

/-- Run `f` on the next state of an outcome. -/
def andThen (o : Host.Outcome State Fault Refusal) (f : State → Host.Outcome State Fault Refusal) :
    Host.Outcome State Fault Refusal :=
  match o with
  | .next s => f s
  | .fault r => .fault r
  | .refused r => .refused r

/-- `node[k]` (R12): the node in slot k, if the slot holds one. -/
def nodeAt (s : State) (k : Nat) : Option Node := (s.nodes[k]?).join

/-- Write the node record of slot k. -/
def putNode (s : State) (k : Nat) (n : Node) : State := { s with nodes := s.nodes.set k (some n) }

/-- Change the node record of slot k; a slot without a node stays as it is. -/
def updateNode (s : State) (k : Nat) (f : Node → Node) : State :=
  match nodeAt s k with
  | some n => putNode s k (f n)
  | none => s

/-- `emit E(args)` (R14, R100): append the event with the tick of the bus. -/
def emit (s : State) (e : EventKind) : State := { s with events := s.events ++ [⟨s.busTick, e⟩] }

/-- Emit an event that names node k. -/
def emitNode (s : State) (k : Nat) (mk : Node → EventKind) : State :=
  match nodeAt s k with
  | some n => emit s (mk n)
  | none => s

/-- `seq.phase <- P` (R14). -/
def setPhase (s : State) (p : Phase) : State := { s with seqPhase := p }

/-- `bus.connected <- ks`. -/
def setConnected (s : State) (ks : List Nat) : State := { s with busConnected := ks }

/-- `bus.onBus <- f`. -/
def setOnBus (s : State) (f : Option Frame) : State := { s with busOnBus := f }

/-- `bus.tick <- t`. -/
def setBusTick (s : State) (t : Nat) : State := { s with busTick := t }

/-- `drv.tick <- t`. -/
def setDrvTick (s : State) (t : Nat) : State := { s with drvTick := t }

/-- A `RUN` stands before its next boundary, or does not. -/
def setRunning (s : State) (b : Bool) : State := { s with drvRunning := b }

/-- `seq.bitIndex <- i`. -/
def setBitIndex (s : State) (i : Nat) : State := { s with seqBitIndex := i }

/-- `seq.winner <- w; seq.wonAt <- i`. -/
def setWinner (s : State) (w : Option Nat) (i : Nat) : State := { s with seqWinner := w, seqWonAt := i }

/-- `seq.ackSeen <- b`. -/
def setAckSeen (s : State) (b : Bool) : State := { s with seqAckSeen := b }

/-- Return a result to the host (R93). -/
def setResult (s : State) (r : Result) : State := { s with result := r }

/-- Apply `f` to the slots of a list, in order (R14 "in order"). -/
def forSlots (f : State → Nat → State) (ks : List Nat) (s : State) : State := ks.foldl f s

/-- `next <- QPop(pending)`, or `null` when the queue is empty (R13, R161, R167). -/
def popNext (n : Node) : Node :=
  match n.pending with
  | [] => { n with next := none }
  | f :: rest => { n with next := some f, pending := rest }

/-- The node record `NODE_INIT` writes (R161): Idle, both counters 0, the head popped out of the frame list. -/
def freshNode (id : Nat) (listeners : List Nat) (frames : List Frame) : Node :=
  popNext
    { id := id, pending := frames, next := none, listeners := listeners, status := .idle, transmitErrors := 0,
      receiveErrors := 0 }

/-- `node[k].status <- st; emit StatusChanged(node[k].id, st)`: the four `enter*` operations (R162 to R165). -/
def enterStatus (st : Status) (s : State) (k : Nat) : State :=
  emitNode (updateNode s k fun n => { n with status := st }) k fun n => .statusChanged n.id st

/-- Take slot k out of `bus.connected` and announce it (R175): "order of the rest kept". -/
def disconnect (s : State) (k : Nat) : State :=
  emitNode (setConnected s (s.busConnected.filter (· ≠ k))) k fun n => .nodeEvicted n.id

/-- An occurrence of an error class (R261) with the node it concerns. -/
inductive ErrorEvent where
  | construction
  | frameCorruption (listener : Nat)
  | acknowledgmentFailure (winner : Nat)
  | busOff (winner : Nat)
  | decode
  deriving DecidableEq, Repr

/-- The class of an occurrence (R261). -/
def errorClassOf : ErrorEvent → ErrorClass
  | .construction => .constructionError
  | .frameCorruption _ => .frameCorruption
  | .acknowledgmentFailure _ => .acknowledgmentFailure
  | .busOff _ => .busOff
  | .decode => .decodeError

/-- Taking an error: "What each class saves and changes" (R273, R261). `ConstructionError` and `DecodeError` are
returned to the caller and change nothing else (R262, R266). `FrameCorruption` adds 1 to the listener's `receiveErrors`
(R263). `AcknowledgmentFailure` adds 1 to the winner's `transmitErrors` and repairs its head frame (R264, R169). `BusOff`
evicts the winner (R265, R175). "Nothing is saved anywhere: no return address, no status word, no stack", and there is
no return operation (R274): the step that raised the error goes on. -/
def takeError (e : ErrorEvent) (s : State) : State :=
  match e with
  | .construction => setResult s (.error (errorClassOf e))
  | .decode => setResult s (.error (errorClassOf e))
  | .frameCorruption k => updateNode s k fun n => { n with receiveErrors := n.receiveErrors + 1 }
  | .acknowledgmentFailure k =>
    updateNode s k fun n => { n with transmitErrors := n.transmitErrors + 1, next := n.next.map repairFrame }
  | .busOff k => disconnect (updateNode s k fun n => { n with status := .evicted }) k

end Sys2Proof.Machine
end

