-- ==== Sys2Proof/Machine/Flags.lean ====
section
/-!
DEFINITION. The one-bit values of the block (10_state.md R45), who may contend and who listens, and the numeric codes of
the status, phase and error registers (30_encoding.md R97 to R99). The block has no condition-code register.
-/

namespace Sys2Proof.Machine

/-- The status of node k is `st`. -/
def statusIs (s : State) (st : Status) (k : Nat) : Bool :=
  match nodeAt s k with
  | some n => n.status == st
  | none => false

/-- Node k is eligible (R190, R17): it has a head frame whose time is not after `bus.tick`. -/
def eligible (s : State) (k : Nat) : Bool :=
  match nodeAt s k with
  | some n =>
    match n.next with
    | some f => decide (f.time ≤ s.busTick)
    | none => false
  | none => false

/-- The stop condition of `RUN` (R244, R45e): no connected node has a head frame. -/
def stopCondition (s : State) : Bool :=
  s.busConnected.all fun k =>
    match nodeAt s k with
    | some n => n.next.isNone
    | none => true

/-- `RUN` returns at this boundary (R244): the stop condition or a request. -/
def runReturns (s : State) : Bool := stopCondition s || s.drvStopReq || s.drvPauseReq

/-- Every connected node is Idle and no frame is on the bus (R195, R210, preconditions). -/
def busQuiet (s : State) : Bool := s.busConnected.all (statusIs s .idle) && s.busOnBus.isNone

/-- The active listeners of node w (R213): the connected nodes whose id is in its `listeners`, in order. -/
def activeListeners (s : State) (w : Nat) : List Nat :=
  match nodeAt s w with
  | some n =>
    s.busConnected.filter fun k =>
      match nodeAt s k with
      | some m => n.listeners.contains m.id
      | none => false
  | none => []

/-- The status register's code (R97). -/
def statusCode : Status → BitVec 3
  | .idle => 0
  | .arbitrating => 1
  | .sending => 2
  | .receiving => 3
  | .evicted => 4

/-- The phase register's code (R98). -/
def phaseCode : Phase → BitVec 3
  | .idle => 0
  | .eligibility => 1
  | .arbitration => 2
  | .transmission => 3
  | .acknowledgment => 4
  | .outcome => 5
  | .evictionCheck => 6
  | .roundReset => 7

/-- The error-class code (R261). -/
def errorCode : ErrorClass → Nat
  | .constructionError => 1
  | .frameCorruption => 2
  | .acknowledgmentFailure => 3
  | .busOff => 4
  | .decodeError => 5

end Sys2Proof.Machine
end

