-- ==== Sys2Proof/Machine/Operands.lean ====
section
/-!
DEFINITION. The operand forms (30_encoding.md R94): a node operand is a slot index that must hold a node; the priority
operand of `CONSTRUCT` is an unbounded integer with a range check. Byte sequences, frames and bit strings are taken by
value.
-/

namespace Sys2Proof.Machine

/-- A node operand: run `f` on the node in slot k; a slot index that holds no node is refused (log entry 9). -/
def withNode (s : State) (k : Nat) (f : Node → Host.Outcome State Fault Refusal) :
    Host.Outcome State Fault Refusal :=
  match nodeAt s k with
  | some n => f n
  | none => .refused .noNodeInSlot

/-- The range check of the priority operand (R91a, R131). -/
def priorityInRange (p : Int) : Bool := decide (0 ≤ p) && decide (p ≤ (prioMax : Int))

end Sys2Proof.Machine
end

