-- ==== Sys2Proof/Machine/NodeOps.lean ====
section
/-!
DEFINITION. The node operations (42_node.md): the effects shared with the sequencer, and the meanings of the ten node
commands. "None of the node operations checks that the transition it makes is one the state machine allows" (R160).
-/

namespace Sys2Proof.Machine

/-- `NODE_INIT(k, id, listeners, frames)` (R161): the slot must exist and be unoccupied, the node must not listen to
itself (decision D19). -/
def nodeInit (k : Nat) (id : Nat) (listeners : List Nat) (frames : List Frame) (s : State) :
    Host.Outcome State Fault Refusal :=
  if s.nodes.length ≤ k then .refused .noSuchSlot
  else if (nodeAt s k).isSome then .refused .slotOccupied
  else if listeners.contains id then .refused .selfListener
  else .next (putNode s k (freshNode id listeners frames))

/-- `TRANSMIT(k)` (R166): `bus.onBus <- copy(node[k].next)`. -/
def transmit (k : Nat) (s : State) : Host.Outcome State Fault Refusal :=
  withNode s k fun n =>
    match n.status, n.next with
    | .sending, some f => .next (setOnBus s (some f))
    | _, _ => .refused .transmitPrecondition

/-- `RECEIVE(k)` with a frame on the bus (R171): the state after it and the acknowledgment indicator. -/
def receive (f : Frame) (k : Nat) (s : State) : State × Bool :=
  if frameValid f then (s, true) else (takeError (.frameCorruption k) s, false)

/-- `ACK_SUCCESS(k)` (R167). -/
def ackSuccess (k : Nat) (s : State) : State := updateNode s k popNext

/-- `ACK_FAILURE(k)` (R169): the handler of `AcknowledgmentFailure`. -/
def ackFailure (k : Nat) (s : State) : State := takeError (.acknowledgmentFailure k) s

/-- `EVICT(k)` (R175): the handler of `BusOff`. -/
def evict (k : Nat) (s : State) : State := takeError (.busOff k) s

/-- NODE_INIT (R161). -/
def execNodeInit (k : Nat) (id : Nat) (listeners : List Nat) (frames : List Frame) (s : State) :
    Host.Outcome State Fault Refusal :=
  andThen (nodeInit k id listeners frames s) fun s' => .next (setResult s' .none)

/-- ENTER_ARBITRATION (R162). -/
def execEnterArbitration (k : Nat) (s : State) : Host.Outcome State Fault Refusal :=
  withNode s k fun n => .next (setResult (enterStatus .arbitrating s k) (.description n.id .arbitrating))

/-- ENTER_IDLE (R163). -/
def execEnterIdle (k : Nat) (s : State) : Host.Outcome State Fault Refusal :=
  withNode s k fun n => .next (setResult (enterStatus .idle s k) (.description n.id .idle))

/-- ENTER_SENDING (R164). -/
def execEnterSending (k : Nat) (s : State) : Host.Outcome State Fault Refusal :=
  withNode s k fun n => .next (setResult (enterStatus .sending s k) (.description n.id .sending))

/-- ENTER_RECEIVING (R165). -/
def execEnterReceiving (k : Nat) (s : State) : Host.Outcome State Fault Refusal :=
  withNode s k fun n => .next (setResult (enterStatus .receiving s k) (.description n.id .receiving))

/-- TRANSMIT (R166). -/
def execTransmit (k : Nat) (s : State) : Host.Outcome State Fault Refusal :=
  andThen (transmit k s) fun s' => .next (setResult s' .none)

/-- RECEIVE (R171). -/
def execReceive (k : Nat) (s : State) : Host.Outcome State Fault Refusal :=
  withNode s k fun _ =>
    match s.busOnBus with
    | some f => .next (setResult (receive f k s).1 (.ack (receive f k s).2))
    | none => .refused .receiveEmptyBus

/-- ACK_SUCCESS (R167). -/
def execAckSuccess (k : Nat) (s : State) : Host.Outcome State Fault Refusal :=
  withNode s k fun n =>
    if n.next.isSome then .next (setResult (ackSuccess k s) .none) else .refused .ackWithoutFrame

/-- ACK_FAILURE (R169). -/
def execAckFailure (k : Nat) (s : State) : Host.Outcome State Fault Refusal :=
  withNode s k fun n =>
    if n.next.isSome then .next (setResult (ackFailure k s) .none) else .refused .ackWithoutFrame

/-- EVICT (R175). -/
def execEvict (k : Nat) (s : State) : Host.Outcome State Fault Refusal :=
  withNode s k fun _ => .next (setResult (evict k s) .none)

end Sys2Proof.Machine
end

