-- ==== Sys2Proof/Machine/Arbiter.lean ====
section
/-!
DEFINITION. The CAN arbitrator (43_arbiter.md): eligibility, the bit-wise dominant/recessive comparator, the winner
encoder, and the meaning of `ARBITRATE`.
-/

namespace Sys2Proof.Machine

/-- `ArbitrationStarted` for the nodes that have entered Arbitrating, if there is one (R190). -/
def announceStart (e : List Nat) (s : State) : State :=
  if e = [] then s else emit s (.arbitrationStarted (e.filterMap fun k => (nodeAt s k).map Node.id))

/-- Step 1 (R190): the eligible connected nodes enter Arbitrating, in `bus.connected` order. -/
def enterEligible (s : State) : State :=
  announceStart (s.busConnected.filter (eligible s))
    (forSlots (enterStatus .arbitrating) (s.busConnected.filter (eligible s)) s)

/-- The contenders (R17): the connected nodes with status Arbitrating, in order. -/
def contenders (s : State) : List Nat := s.busConnected.filter (statusIs s .arbitrating)

/-- `arbitrationId[i]` of a node's head frame; a node without one drives nothing, and an undriven bus is recessive
(R191). A contender always has a head frame: it was eligible (R190). -/
def headBit (i : Nat) (n : Node) : Bool :=
  match n.next with
  | some f => (arbitrationId f).getD i true
  | none => true

/-- Node k puts a dominant bit on the bus at index i. -/
def dominantAt (s : State) (i : Nat) (k : Nat) : Bool :=
  match nodeAt s k with
  | some n => !headBit i n
  | none => false

/-- Every contender's bit at index i is reported (R193). -/
def reportBits (i : Nat) (a : List Nat) (s : State) : State :=
  forSlots (fun s k => emitNode s k fun n => .arbitrationBitResult n.id i (headBit i n)) a s

/-- Steps 2b and 2c (R193): if a contender's bit is dominant, the recessive contenders leave to Idle; else nobody does.
Answers the state and `lastDom`. -/
def eliminate (i : Nat) (a : List Nat) (lastDom : Option Nat) (s : State) : State × Option Nat :=
  if a.filter (dominantAt s i) = [] then (s, lastDom)
  else
    (forSlots (enterStatus .idle) (a.filter fun k => !dominantAt s i k) s, (a.filter (dominantAt s i)).getLast?)

/-- One arbitration index with two contenders or more (R193). -/
def compareIndex (i : Nat) (a : List Nat) (lastDom : Option Nat) (s : State) : State × Option Nat :=
  eliminate i a lastDom (reportBits i a s)

/-- What the comparator leaves behind: the state, `lastDom`, and whether step 2a stopped the loop. -/
structure ArbRun where
  st : State
  lastDom : Option Nat
  stopped : Bool
  deriving DecidableEq, Repr

/-- Step 2 (R192, R193): the loop over the arbitration indices. Step 2a is looked at before the comparison at each
index. After the last index `seq.bitIndex` is 11 (R44). -/
def arbLoop : List Nat → Option Nat → State → ArbRun
  | [], lastDom, s => ⟨setBitIndex s Config.idBits, lastDom, false⟩
  | i :: rest, lastDom, s =>
    match contenders s with
    | [k] => ⟨setWinner (setBitIndex s i) (some k) i, lastDom, true⟩
    | [] => arbLoop rest lastDom (setBitIndex s i)
    | a =>
      arbLoop rest (compareIndex i a lastDom (setBitIndex s i)).2 (compareIndex i a lastDom (setBitIndex s i)).1

/-- Loop exhaustion (R196, R199). -/
def exhaust (lastDom : Option Nat) (s : State) : Host.Outcome State Fault Refusal :=
  match contenders s with
  | [] => .next (setWinner s none s.seqWonAt)
  | [k] => .next (setWinner s (some k) Config.idBits)
  | _ =>
    match s.cfgDupIdPolicy with
    | .refuse => .refused .duplicateIds
    | .lastDominant => .next (setWinner s lastDom Config.idBits)

/-- `if seq.winner != none: emit ArbitrationWon(node[seq.winner].id, seq.wonAt)` (R195). -/
def announceWinner (s : State) : State :=
  match s.seqWinner with
  | some w => emitNode s w fun n => .arbitrationWon n.id s.seqWonAt
  | none => s

/-- Step 3 (R195): a loop that step 2a did not stop is exhausted; the winner is announced. -/
def finishArbitration (r : ArbRun) : Host.Outcome State Fault Refusal :=
  andThen (if r.stopped then .next r.st else exhaust r.lastDom r.st) fun s => .next (announceWinner s)

/-- Steps 1 to 3 of a round (R195). -/
def arbitrate (s : State) : Host.Outcome State Fault Refusal :=
  finishArbitration (arbLoop (List.range Config.idBits) none (enterEligible (setWinner s none 0)))

/-- ARBITRATE (R195). -/
def execArbitrate (s : State) : Host.Outcome State Fault Refusal :=
  if busQuiet s then
    andThen (arbitrate s) fun s' => .next (setResult s' (.arbitration s'.seqWinner s'.seqWonAt))
  else .refused .arbitratePrecondition

end Sys2Proof.Machine
end

