-- ==== Sys2Proof/Machine/Sequencer.lean ====
section
/-!
DEFINITION. The protocol sequencer (44_sequencer.md): the steps of one round in their order, and the meaning of `ROUND`.
-/

namespace Sys2Proof.Machine

/-- The fields of the bus trace of frame f, won at index `wonAt` (R90, R214), the empty ones left out. -/
def traceFields (f : Frame) (wonAt : Nat) : List (FieldName × Bits) :=
  [ (FieldName.arbRemaining, (arbitrationId f).drop wonAt),
    (FieldName.stuff, stuffBit f),
    (FieldName.rtr, controlBit),
    (FieldName.ide, controlBit),
    (FieldName.reserved, controlBit),
    (FieldName.data, dataBits f),
    (FieldName.crc, crcBits f),
    (FieldName.ack, ackBits),
    (FieldName.eof, eofBits),
    (FieldName.ifs, ifsBits) ].filter fun p => !p.2.isEmpty

/-- The `FrameFieldSent` events of R214 for the frame on the bus. -/
def emitFields (w : Nat) (s : State) : State :=
  match s.busOnBus with
  | some f =>
    (traceFields f s.seqWonAt).foldl
      (fun s p => emitNode s w fun n => .frameFieldSent n.id p.1 p.2) s
  | none => s

/-- Step 4 (R213, R214): the winner enters Sending, its active listeners `ls` Receiving, the frame goes on the bus. -/
def transmission (w : Nat) (ls : List Nat) (s : State) : Host.Outcome State Fault Refusal :=
  andThen (transmit w (forSlots (enterStatus .receiving) ls s)) fun s' => .next (emitFields w s')

/-- One listener's part of step 5 (R216): `seq.ackSeen <- seq.ackSeen | RECEIVE(k)`. -/
def receiveStep (s : State) (k : Nat) : State :=
  match s.busOnBus with
  | some f => setAckSeen (receive f k s).1 (s.seqAckSeen || (receive f k s).2)
  | none => s

/-- `AcknowledgmentResult` for the winner (R217). -/
def reportAck (w : Nat) (s : State) : State := emitNode s w fun n => .acknowledgmentResult n.id s.seqAckSeen

/-- Step 5 (R216, R217): every active listener is called, without short-circuit. -/
def acknowledgment (w : Nat) (ls : List Nat) (s : State) : State :=
  reportAck w (forSlots receiveStep ls (setAckSeen (setPhase s .acknowledgment) false))

/-- `TransmitFailure` with the count after the increment (R220). -/
def reportFailure (w : Nat) (s : State) : State := emitNode s w fun n => .transmitFailure n.id n.transmitErrors

/-- Step 6 (R219, R220). -/
def outcome (w : Nat) (s : State) : State :=
  if s.seqAckSeen then ackSuccess w (setPhase s .outcome) else reportFailure w (ackFailure w (setPhase s .outcome))

/-- Node w's `transmitErrors` has reached the configured limit (R222). -/
def limitReached (s : State) (w : Nat) : Bool :=
  match nodeAt s w with
  | some n => decide (s.cfgErrorLimit ≤ n.transmitErrors)
  | none => false

/-- Step 7 (R222): eviction when the winner's `transmitErrors` reaches the limit. -/
def evictionCheck (w : Nat) (s : State) : State :=
  if limitReached s w then evict w (setPhase s .evictionCheck) else setPhase s .evictionCheck

/-- `if node[k].status != Idle: ENTER_IDLE(k)` (R224). -/
def idleStep (s : State) (k : Nat) : State := if statusIs s .idle k then s else enterStatus .idle s k

/-- Step 8 (R224). -/
def roundReset (s : State) : State :=
  setPhase (emit (setOnBus (forSlots idleStep s.busConnected (setPhase s .roundReset)) none) .roundReset) .idle

/-- Steps 4 to 7 of a round, the winner w Sending, `ls` its active listeners. -/
def deliverTo (w : Nat) (ls : List Nat) (s : State) : Host.Outcome State Fault Refusal :=
  andThen (transmission w ls s) fun s' => .next (evictionCheck w (outcome w (acknowledgment w ls s')))

/-- Steps 4 to 7 of a round with winner w: `Ls` is computed once, after the winner has entered Sending (R210, R213). -/
def deliver (w : Nat) (s : State) : Host.Outcome State Fault Refusal :=
  deliverTo w (activeListeners (enterStatus .sending (setPhase s .transmission) w) w)
    (enterStatus .sending (setPhase s .transmission) w)

/-- One round (R210), its preconditions met. -/
def roundBody (s : State) : Host.Outcome State Fault Refusal :=
  andThen (arbitrate (setPhase (setPhase s .eligibility) .arbitration)) fun s1 =>
    match s1.seqWinner with
    | some w => andThen (deliver w s1) fun s2 => .next (roundReset s2)
    | none => .next (roundReset s1)

/-- A round with its preconditions (R210, X11). -/
def round (s : State) : Host.Outcome State Fault Refusal :=
  if s.drvSetupDone = false then .refused .notSetUp
  else if busQuiet s && s.seqPhase == .idle then roundBody s
  else .refused .roundPrecondition

/-- ROUND (R210). -/
def execRound (s : State) : Host.Outcome State Fault Refusal :=
  andThen (round s) fun s' => .next (setResult s' .none)

end Sys2Proof.Machine
end

