-- ==== Sys2Proof/Machine/Driver.lean ====
section
/-!
DEFINITION. The simulation driver (45_driver.md): the meanings of `RESET`, `SETUP`, `STEP`, `RUN`, `PAUSE`, `STOP` and
`RESUME`.
-/

namespace Sys2Proof.Machine

/-- RESET (R240, R50): no nodes, everything at its reset value. `cfg.errorLimit` and `cfg.dupIdPolicy` are "unspecified
until `SETUP` writes them": free values (log entry 3). The host's input ports are not the block's state and stay. -/
def execReset (s : State) : Host.Outcome State Fault Refusal :=
  if s.seqPhase = .idle then
    .next
      { State.resetOf s.nodes.length with
        cfgErrorLimit := Config.freeErrorLimit s.freeCount
        cfgDupIdPolicy := Config.freeDupIdPolicy s.freeCount
        commands := s.commands
        arrivals := s.arrivals
        hostDirect := s.hostDirect
        freeCount := s.freeCount + 1 }
  else .refused .sequencerBusy

/-- The loop of `SETUP` over the node specs, from slot j on (R241). -/
def setupNodes : Nat → List NodeSpec → State → Host.Outcome State Fault Refusal
  | _, [], s => .next s
  | j, n :: rest, s =>
    andThen (nodeInit j n.id n.listeners n.frames s) fun s1 =>
      setupNodes (j + 1) rest (emit (setConnected s1 (s1.busConnected ++ [j])) (.nodeConnected n.id))

/-- The ids of a list are pairwise distinct (R241). -/
def distinctIds : List Nat → Bool
  | [] => true
  | i :: rest => !rest.contains i && distinctIds rest

/-- SETUP (R241), its preconditions in the rule's order. -/
def execSetup (errorLimit : Nat) (dupIdPolicy : DupIdPolicy) (nodeSpecs : List NodeSpec) (s : State) :
    Host.Outcome State Fault Refusal :=
  if s.drvSetupDone then .refused .setupTwice
  else if distinctIds (nodeSpecs.map NodeSpec.id) = false then .refused .duplicateNodeId
  else if s.nodes.length < nodeSpecs.length then .refused .tooManyNodes
  else if errorLimit = 0 then .refused .badErrorLimit
  else
    andThen (setupNodes 0 nodeSpecs { s with cfgErrorLimit := errorLimit, cfgDupIdPolicy := dupIdPolicy }) fun s' =>
      .next { setResult s' .none with drvSetupDone := true }

/-- One `STEP` (R243): `bus.tick <- drv.tick`, a round, `drv.tick + 1`. -/
def driverStep (s : State) : Host.Outcome State Fault Refusal :=
  andThen (round (setBusTick s s.drvTick)) fun s' => .next (setDrvTick s' (s'.drvTick + 1))

/-- STEP (R243). It looks neither at the requests nor at the stop condition. -/
def execStep (s : State) : Host.Outcome State Fault Refusal :=
  andThen (driverStep s) fun s' => .next (setResult s' .none)

/-- RUN (R244), one iteration: the three conditions are looked at together; if none holds, one `STEP`, after which the
run stands before its next boundary (`drvRunning`, log entry 7). -/
def execRun (s : State) : Host.Outcome State Fault Refusal :=
  if s.drvSetupDone = false then .refused .notSetUp
  else if runReturns s then .next (setRunning (setResult s .none) false)
  else andThen (driverStep s) fun s' => .next (setRunning (setResult s' .none) true)

/-- PAUSE (R245). -/
def execPause (s : State) : Host.Outcome State Fault Refusal :=
  .next { setResult s .none with drvPauseReq := true }

/-- STOP (R246). -/
def execStop (s : State) : Host.Outcome State Fault Refusal :=
  .next { setResult s .none with drvStopReq := true }

/-- RESUME (R247): it does not clear `drv.stopReq`. -/
def execResume (s : State) : Host.Outcome State Fault Refusal :=
  .next { setResult s .none with drvPauseReq := false }

end Sys2Proof.Machine
end

