-- ==== Sys2Proof/Machine/FrameOps.lean ====
section
/-!
DEFINITION. The meanings of the CRC and frame operations (40_crc16.md, 41_frame.md). They are pure or act on a frame
operand only (R54): the only state they write is the result they return.
-/

namespace Sys2Proof.Machine

/-- CRC16 (R112). -/
def execCrc16 (bytes : List Byte) (s : State) : Host.Outcome State Fault Refusal :=
  .next (setResult s (.word (crc16 bytes)))

/-- CRC_BYTE (R113). -/
def execCrcByte (crc : CrcWord) (b : Byte) (s : State) : Host.Outcome State Fault Refusal :=
  .next (setResult s (.word (crcByte crc b)))

/-- CONSTRUCT (R131): a construction error on a priority out of range or an empty payload, then the refusal of more than
15 bytes (decision D4). -/
def execConstruct (time : Nat) (data : List Byte) (priority : Int) (s : State) : Host.Outcome State Fault Refusal :=
  if priorityInRange priority = false then .next (takeError .construction s)
  else if data = [] then .next (takeError .construction s)
  else if Config.dataMax < data.length then .refused .payloadTooLong
  else .next (setResult s (.frame (newFrame time data priority.toNat)))

/-- ENCODE (R135). -/
def execEncode (f : Frame) (s : State) : Host.Outcome State Fault Refusal :=
  .next (setResult s (.bits (frameBits f)))

/-- DECODE (R138). -/
def execDecode (bits : Bits) (s : State) : Host.Outcome State Fault Refusal :=
  match decodeFrame bits with
  | some d => .next (setResult s (.fields d.priority d.data d.crc))
  | none => .next (takeError .decode s)

/-- CORRUPT (R145). -/
def execCorrupt (f : Frame) (byteIndex bitIndex : Nat) (s : State) : Host.Outcome State Fault Refusal :=
  .next (setResult s (.frame (corruptFrame f byteIndex bitIndex)))

/-- REPAIR (R148). -/
def execRepair (f : Frame) (s : State) : Host.Outcome State Fault Refusal :=
  .next (setResult s (.frame (repairFrame f)))

/-- ISVALID (R150). -/
def execIsvalid (f : Frame) (s : State) : Host.Outcome State Fault Refusal :=
  .next (setResult s (.valid (frameValid f)))

end Sys2Proof.Machine
end

