-- ==== Sys2Proof/Machine/Dispatch.lean ====
section
/-! DEFINITION. One arm per operation of the command table (30_encoding.md R93). -/

namespace Sys2Proof.Machine

def exec (i : Instr) (s : State) : Host.Outcome State Fault Refusal :=
  match i with
  | .reset => Sys2Proof.Machine.execReset s
  | .crc16 bytes => Sys2Proof.Machine.execCrc16 bytes s
  | .crcByte crc b => Sys2Proof.Machine.execCrcByte crc b s
  | .construct time data priority => Sys2Proof.Machine.execConstruct time data priority s
  | .encode f => Sys2Proof.Machine.execEncode f s
  | .decode bits => Sys2Proof.Machine.execDecode bits s
  | .corrupt f byteIndex bitIndex => Sys2Proof.Machine.execCorrupt f byteIndex bitIndex s
  | .repair f => Sys2Proof.Machine.execRepair f s
  | .isvalid f => Sys2Proof.Machine.execIsvalid f s
  | .nodeInit k id listeners frames => Sys2Proof.Machine.execNodeInit k id listeners frames s
  | .enterArbitration k => Sys2Proof.Machine.execEnterArbitration k s
  | .enterIdle k => Sys2Proof.Machine.execEnterIdle k s
  | .enterSending k => Sys2Proof.Machine.execEnterSending k s
  | .enterReceiving k => Sys2Proof.Machine.execEnterReceiving k s
  | .transmit k => Sys2Proof.Machine.execTransmit k s
  | .receive k => Sys2Proof.Machine.execReceive k s
  | .ackSuccess k => Sys2Proof.Machine.execAckSuccess k s
  | .ackFailure k => Sys2Proof.Machine.execAckFailure k s
  | .evict k => Sys2Proof.Machine.execEvict k s
  | .arbitrate => Sys2Proof.Machine.execArbitrate s
  | .round => Sys2Proof.Machine.execRound s
  | .setup errorLimit dupIdPolicy nodeSpecs => Sys2Proof.Machine.execSetup errorLimit dupIdPolicy nodeSpecs s
  | .step => Sys2Proof.Machine.execStep s
  | .run => Sys2Proof.Machine.execRun s
  | .pause => Sys2Proof.Machine.execPause s
  | .stop => Sys2Proof.Machine.execStop s
  | .resume => Sys2Proof.Machine.execResume s

end Sys2Proof.Machine
end

