-- ==== Sys2Proof/Machine/Fetch.lean ====
section
/-!
DEFINITION. Where the next operation comes from (45_driver.md R249, log entries 4, 7 and 10): a looping `RUN` goes on,
after the requests that reached it; otherwise the next command the host has issued. The block fetches no program (R6).
-/

namespace Sys2Proof.Machine

/-- What a step does next. -/
inductive Fetched where
  /-- no command waits: the block is quiescent and keeps all state (R54, R285) -/
  | quiescent
  /-- the operation to execute and the state it acts on -/
  | issue (i : Instr) (s : State)
  /-- the command has no meaning -/
  | refuse (r : Refusal)
  deriving DecidableEq, Repr

/-- The requests of the next entry of `arrivals` set their flags (R249: `PAUSE` and `STOP` "may arrive while `RUN` is
looping, and then only set their flag"). -/
def acceptArrival (s : State) : State :=
  match s.arrivals with
  | [] => s
  | a :: rest =>
    { s with
      arrivals := rest
      drvPauseReq := s.drvPauseReq || a.pause
      drvStopReq := s.drvStopReq || a.stop }

def rejectRefusal : CommandReject → Refusal
  | .reservedCode => .reservedCommand
  | .operandForm => .operandForm

/-- The node-level commands (0x09 to 0x13) and `ROUND`: "the sequencer's building blocks" (70_reset_and_hazards.md R298,
R296). -/
def nodeLevel : Instr → Bool
  | .reset => false
  | .crc16 _ => false
  | .crcByte _ _ => false
  | .construct _ _ _ => false
  | .encode _ => false
  | .decode _ => false
  | .corrupt _ _ _ => false
  | .repair _ => false
  | .isvalid _ => false
  | .nodeInit _ _ _ _ => true
  | .enterArbitration _ => true
  | .enterIdle _ => true
  | .enterSending _ => true
  | .enterReceiving _ => true
  | .transmit _ => true
  | .receive _ => true
  | .ackSuccess _ => true
  | .ackFailure _ => true
  | .evict _ => true
  | .arbitrate => true
  | .round => true
  | .setup _ _ _ => false
  | .step => false
  | .run => false
  | .pause => false
  | .stop => false
  | .resume => false

/-- A host command the block is not exposed to (R298): a node-level command or `ROUND` after `SETUP`, unless the host
accepts the loss of the invariants (R160, R268; log entry 10). The sequencer runs the same operations inside a round. -/
def isDirect (i : Instr) (s : State) : Bool := nodeLevel i && s.drvSetupDone && !s.hostDirect

/-- The operation of one command, if its code and operands name one. -/
def readCommand (c : Command) : Except Refusal Instr :=
  match decode c.op c.args with
  | .error r => .error (rejectRefusal r)
  | .ok i => if i.wf then .ok i else .error .illFormedOperand

/-- The next operation. -/
def fetch (s : State) : Fetched :=
  if s.drvRunning then .issue .run (acceptArrival s)
  else
    match s.commands with
    | [] => .quiescent
    | c :: rest =>
      if s.seqPhase = .idle then
        match readCommand c with
        | .ok i => if isDirect i s then .refuse .directNodeCommand else .issue i { s with commands := rest }
        | .error r => .refuse r
      else .refuse .sequencerBusy

/-- A state in which the next fetch takes the command c: it is put in front of the waiting ones, no `RUN` is looping, the
sequencer is between operations (R249), and after a `SETUP` the host may issue any command. -/
def placeCommand (s : State) (c : Command) : State :=
  { s with
    commands := c :: s.commands
    drvRunning := false
    seqPhase := .idle
    hostDirect := s.hostDirect || s.drvSetupDone }

end Sys2Proof.Machine
end

