-- ==== Sys2Proof/Machine/Step.lean ====
section
/-!
DEFINITION. One step of the machine: the next operation is fetched and executed. One step is one operation, an atomic
transition (20_memory.md R66), but for `RUN`, whose every iteration is a step (log entry 7).
-/

namespace Sys2Proof.Machine

def step (s : State) : Host.Outcome State Fault Refusal :=
  match fetch s with
  | .quiescent => .next s
  | .issue i s' => exec i s'
  | .refuse r => .refused r

/-- The state with an opcode-table word's command in front of the waiting ones, so that the next step fetches it (log
entry 5). -/
def State.withFetchWord (s : State) (nbits w : Nat) : State := placeCommand s (tableCommand nbits w)

end Sys2Proof.Machine
end

