-- ==== Sys2Proof/Safety.lean ====
section
/-!
DEFINITION. The vocabulary of claims: what holds between operations, what
makes a round well defined, and the spec's own second readings of an operation (the bit-serial CRC, the canonical event
order) that claims compare the machine with.
-/

namespace Sys2Proof.Machine

/-- The undelivered frames of a node, oldest first (10_state.md R32): `next`, then `pending`. -/
def undelivered (n : Node) : List Frame := n.next.toList ++ n.pending

/-- What every step keeps, whatever command the host issues. -/
structure Inv (s : State) : Prop where
  /-- a round is over before the next command (R66, R211) -/
  phaseIdle : s.seqPhase = .idle
  /-- every frame of a node has 1 to 15 data bytes (R26) -/
  nodeFrames : ∀ k n, nodeAt s k = some n → ∀ f ∈ undelivered n, f.wf = true
  /-- so has the frame on the bus -/
  busFrame : ∀ f, s.busOnBus = some f → f.wf = true
  /-- "`next == null implies QEmpty(pending)`" (R32) -/
  queue : ∀ k n, nodeAt s k = some n → n.next = none → n.pending = []
  /-- a listener set does not name its own node and is held in its canonical list (R33) -/
  listeners : ∀ k n, nodeAt s k = some n → n.id ∉ n.listeners ∧ ascending n.listeners = true
  /-- a connected slot holds a node (R40) -/
  connectedNodes : ∀ k ∈ s.busConnected, (nodeAt s k).isSome = true
  /-- `bus.connected` is a set (R40) -/
  connectedNodup : s.busConnected.Nodup
  /-- the legal values of `cfg.errorLimit` after `SETUP` (R43) -/
  errorLimit : s.drvSetupDone = true → 1 ≤ s.cfgErrorLimit
  /-- `RUN` loops only after `SETUP` (R244) -/
  running : s.drvRunning = true → s.drvSetupDone = true
  /-- before `SETUP` the bus is empty and no tick has passed (R50, R243) -/
  beforeSetup : s.drvSetupDone = false → s.busConnected = [] ∧ s.busTick = 0 ∧ s.drvTick = 0
  /-- `bus.tick` is an earlier value of `drv.tick` (R42) -/
  tickOrder : s.busTick ≤ s.drvTick
  /-- no event is ahead of the bus (R100) -/
  eventTicks : ∀ e ∈ s.events, e.tick ≤ s.busTick
  /-- the ranges of the arbitration registers (R44) -/
  indices : s.seqBitIndex ≤ Config.idBits ∧ s.seqWonAt ≤ Config.idBits

/-- What every step keeps when the host issues driver commands and pure frame operations only (R296). -/
structure DriverInv (s : State) : Prop extends Inv s where
  /-- "Between rounds every connected node is Idle" (R41), and the bus is clear (R40) -/
  quiet : busQuiet s = true
  /-- the ids of the nodes are pairwise distinct (R30) -/
  idsDistinct : ∀ k k' n n', nodeAt s k = some n → nodeAt s k' = some n' → n.id = n'.id → k = k'
  /-- "a node has Evicted iff `EVICT` has been applied to it" (R34), which is "not in `bus.connected`" (C4) -/
  evictedIff : ∀ k n, nodeAt s k = some n → (n.status = .evicted ↔ k ∉ s.busConnected)
  /-- a connected node's `transmitErrors` is below the limit (R35) -/
  connectedBelow : ∀ k n, nodeAt s k = some n → k ∈ s.busConnected → n.transmitErrors < s.cfgErrorLimit
  /-- an evicted node's `transmitErrors` is the limit (R35) -/
  evictedAt : ∀ k n, nodeAt s k = some n → n.status = .evicted → n.transmitErrors = s.cfgErrorLimit
  /-- before `SETUP` no slot is occupied (R50) -/
  noNodesBeforeSetup : s.drvSetupDone = false → ∀ k, nodeAt s k = none

/-- The head frame of node k. -/
def headFrame (s : State) (k : Nat) : Option Frame := (nodeAt s k).bind Node.next

/-- The priority value of node k's head frame; for slots that have one. -/
def headPriority (s : State) (k : Nat) : Nat := ((headFrame s k).map fun f => f.priority.toNat).getD 0

/-- The contenders of a round from s: the eligible connected nodes, in order (R190). -/
def eligibleSlots (s : State) : List Nat := s.busConnected.filter (eligible s)

/-- No two eligible head frames share a priority (R199, R297). -/
abbrev DistinctHeads (s : State) : Prop :=
  ∀ k ∈ eligibleSlots s, ∀ k' ∈ eligibleSlots s, headPriority s k = headPriority s k' → k = k'

/-- w is eligible and its priority value is smaller than that of every other eligible node. -/
abbrev IsWinner (s : State) (w : Nat) : Prop :=
  w ∈ eligibleSlots s ∧ ∀ k ∈ eligibleSlots s, k ≠ w → headPriority s w < headPriority s k

/-- The eligible nodes whose head frame has the priority of w's, in order. -/
def tiedWith (s : State) (w : Nat) : List Nat :=
  (eligibleSlots s).filter fun k => headPriority s k == headPriority s w

/-- k and k' are two eligible nodes that share the smallest priority value (R199). -/
abbrev TiedSmallest (s : State) (k k' : Nat) : Prop :=
  k ∈ eligibleSlots s ∧ k' ∈ eligibleSlots s ∧ k ≠ k' ∧ headPriority s k = headPriority s k' ∧
    ∀ j ∈ eligibleSlots s, headPriority s k ≤ headPriority s j

/-- The arbitrator selects w: as the only contender with the smallest priority value (R198), or under `last_dominant` as
the last of those that share it, unless that value is 2047 (R199). -/
abbrev IsSelected (s : State) (w : Nat) : Prop :=
  IsWinner s w ∨
    (s.cfgDupIdPolicy = .lastDominant ∧ w ∈ eligibleSlots s ∧
      (∀ k ∈ eligibleSlots s, headPriority s w ≤ headPriority s k) ∧ headPriority s w ≠ prioMax ∧
      (tiedWith s w).getLast? = some w)

/-- The preconditions of `ROUND` (R210) over a well-formed connected set. -/
abbrev RoundReady (s : State) : Prop :=
  s.drvSetupDone = true ∧ busQuiet s = true ∧ s.seqPhase = .idle ∧ s.busConnected.Nodup

/-- No connected node listens to itself (R33). -/
abbrev NoSelfListeners (s : State) : Prop :=
  ∀ k ∈ s.busConnected, ∀ n ∈ nodeAt s k, n.id ∉ n.listeners

/-- Every two undelivered frames of two different connected nodes have different priorities: "the simple sufficient
condition" (R297). -/
abbrev DistinctFrames (s : State) : Prop :=
  ∀ k ∈ s.busConnected, ∀ k' ∈ s.busConnected, k ≠ k' →
    ∀ n ∈ nodeAt s k, ∀ n' ∈ nodeAt s k', ∀ f ∈ undelivered n, ∀ f' ∈ undelivered n', f.priority ≠ f'.priority

/-- What R50 says of the state after `RESET`: every field to which the rule gives a value. -/
abbrev ResetValues (t : State) : Prop :=
  (∀ o ∈ t.nodes, o = none) ∧ t.busConnected = [] ∧ t.busOnBus = none ∧ t.busTick = 0 ∧ t.drvTick = 0 ∧
    t.drvPauseReq = false ∧ t.drvStopReq = false ∧ t.drvSetupDone = false ∧ t.seqPhase = .idle ∧ t.seqBitIndex = 0 ∧
    t.seqWinner = none ∧ t.seqWonAt = 0 ∧ t.seqAckSeen = false ∧ t.events = []

/-- Everything of a state but its node records, its event stream, the result and the sequencer registers: what no
operation on nodes writes. -/
structure Rest where
  slots : Nat
  busTick : Nat
  drvTick : Nat
  drvPauseReq : Bool
  drvStopReq : Bool
  drvSetupDone : Bool
  drvRunning : Bool
  cfgErrorLimit : Nat
  cfgDupIdPolicy : DupIdPolicy
  commands : List Command
  arrivals : List Arrival
  hostDirect : Bool
  freeCount : Nat
  deriving DecidableEq, Repr

def restOf (s : State) : Rest :=
  { slots := s.nodes.length, busTick := s.busTick, drvTick := s.drvTick, drvPauseReq := s.drvPauseReq,
    drvStopReq := s.drvStopReq, drvSetupDone := s.drvSetupDone, drvRunning := s.drvRunning,
    cfgErrorLimit := s.cfgErrorLimit, cfgDupIdPolicy := s.cfgDupIdPolicy, commands := s.commands,
    arrivals := s.arrivals, hostDirect := s.hostDirect, freeCount := s.freeCount }

/-- One step of the bit-serial CRC register (40_crc16.md R114). -/
def crcSerialBit (r : CrcWord) (m : Bool) : CrcWord :=
  if r.msb ^^ m then (r <<< 1) ^^^ crcPoly.setWidth Config.crcWidth else r <<< 1

/-- The bit-serial form of `CRC16` (R114), over the message bits in transmission order. -/
def crcSerial (message : Bits) : CrcWord := message.foldl crcSerialBit crcInit

/-- The message bits of a byte sequence: byte by byte, each most significant bit first (R114). -/
def messageBits (bytes : List Byte) : Bits := bytes.flatMap fun b => bin 8 b.toNat

/-- The identifier a node puts on the bus. -/
def headId (s : State) (k : Nat) : Bits := ((headFrame s k).map arbitrationId).getD []

/-- The id of node k, in a list of one or none. -/
def idAt (s : State) (k : Nat) : List Nat := ((nodeAt s k).map Node.id).toList

/-- The contenders left at index i when w wins: those that agree with w on the indices below i (R194). -/
def contendersAt (s : State) (w : Nat) (i : Nat) : List Nat :=
  (eligibleSlots s).filter fun k => (headId s k).take i == (headId s w).take i

/-- `busBit(i)` (R191) of a round that w wins: the wired-AND of the bits of the contenders left at index i; '0' is
dominant. -/
def busBit (s : State) (w : Nat) (i : Nat) : Bool := (contendersAt s w i).all fun k => (headId s k).getD i true

/-- Lines 1 to 3 of the canonical event order (R226), computed from the state before the round, for winner w known at
index `wonAt`. -/
def arbitrationEvents (s : State) (w : Nat) (wonAt : Nat) : List EventKind :=
  ((eligibleSlots s).flatMap fun k => (idAt s k).map fun id => .statusChanged id .arbitrating)
    ++ [.arbitrationStarted ((eligibleSlots s).flatMap (idAt s))]
    ++ (List.range wonAt).flatMap fun i =>
        ((contendersAt s w i).flatMap fun k =>
            (idAt s k).map fun id => .arbitrationBitResult id i ((headId s k).getD i true))
          ++ ((contendersAt s w i).filter fun k => (headId s k).getD i true && !(headId s w).getD i true).flatMap
              fun k => (idAt s k).map fun id => .statusChanged id .idle

/-- The index at which winner w is known (R197): the least i at which no other contender agrees with w on the indices
below i, and 11 if there is none (R199: contenders with one identifier are left). -/
def wonAtOf (s : State) (w : Nat) : Nat := (List.range Config.idBits).findIdx fun i => (contendersAt s w i).length == 1

/-- Lines 4 to 12 of the canonical event order (R226) of a round from s that w wins, holding node record n and head
frame f. Idle again are the winner unless it is evicted, the listeners, and under `last_dominant` the other
contenders left at the end (R199, R224). -/
def deliveryEvents (s : State) (w : Nat) (n : Node) (f : Frame) : List EventKind :=
  let ls := activeListeners s w
  let left := contendersAt s w (wonAtOf s w)
  let ok := !ls.isEmpty && frameValid f
  let evicted := decide (s.cfgErrorLimit ≤ n.transmitErrors + 1) && !ok
  [.arbitrationWon n.id (wonAtOf s w), .statusChanged n.id .sending]
    ++ (ls.flatMap fun k => (idAt s k).map fun id => .statusChanged id .receiving)
    ++ ((traceFields f (wonAtOf s w)).map fun p => .frameFieldSent n.id p.1 p.2)
    ++ [.acknowledgmentResult n.id ok]
    ++ (if ok then [] else [.transmitFailure n.id (n.transmitErrors + 1)])
    ++ (if evicted then [.nodeEvicted n.id] else [])
    ++ ((s.busConnected.filter fun k => (left.contains k && !(k == w && evicted)) || ls.contains k).flatMap
        fun k => (idAt s k).map fun id => .statusChanged id .idle)
    ++ [.roundReset]

/-- A payload of the reference generator (45_driver.md R253): 5 to 10 uppercase letters (ASCII). -/
def referencePayload (data : List Byte) : Bool :=
  decide (Config.payloadMin ≤ data.length) && decide (data.length ≤ Config.payloadMax) &&
    data.all fun b => decide (0x41 ≤ b.toNat) && decide (b.toNat ≤ 0x5A)

/-- The node record without its receive-error counter. -/
def eraseReceiveErrors (n : Node) : Node := { n with receiveErrors := 0 }

/-- A state without its receive-error counters (R168: "observable-but-inert"). -/
def eraseRec (s : State) : State := { s with nodes := s.nodes.map (Option.map eraseReceiveErrors) }

/-- The next state of an outcome through `f`; the same fault or refusal otherwise. -/
def mapNext (f : State → State) (o : Host.Outcome State Fault Refusal) : Host.Outcome State Fault Refusal :=
  andThen o fun s => .next (f s)

end Sys2Proof.Machine
end

