-- ==== Sys2Proof/Certificates/Slice0/Obligations.lean ====
section
/-!
DEFINITION. The statements about the machine, for the provers. Each cites the rule of spec/ it formalises; where a clause
rests on a choice of the model its docstring names the log entry.
-/

open Sys2Proof Sys2Proof.Machine

/-! ## Commands (30_encoding.md section 6) and the step -/

/-- R93: the code and the operands of every row of the command table, and the reserved codes. That a listener set (of
`NODE_INIT`, and of each node spec of `SETUP`) comes as a list in any order and is brought into its strictly ascending list
with the same members is the model's choice, log entry 8. -/
def Obligations.CommandTableDecodes : Prop :=
  (∀ (op : BitVec 5) (args : Args), 0x1B ≤ op.toNat → decode op args = .error .reservedCode) ∧
  decode 0x00 .none = .ok .reset ∧
  (∀ bytes, decode 0x01 (.bytes bytes) = .ok (.crc16 bytes)) ∧
  (∀ crc b, decode 0x02 (.crcByte crc b) = .ok (.crcByte crc b)) ∧
  (∀ time data priority, decode 0x03 (.frameNew time data priority) = .ok (.construct time data priority)) ∧
  (∀ f, decode 0x04 (.frame f) = .ok (.encode f)) ∧
  (∀ bits, decode 0x05 (.bits bits) = .ok (.decode bits)) ∧
  (∀ f byteIndex bitIndex, decode 0x06 (.frameDraw f byteIndex bitIndex) = .ok (.corrupt f byteIndex bitIndex)) ∧
  (∀ f, decode 0x07 (.frame f) = .ok (.repair f)) ∧
  (∀ f, decode 0x08 (.frame f) = .ok (.isvalid f)) ∧
  (∀ k id listeners frames, ∃ set, (∀ x, x ∈ set ↔ x ∈ listeners) ∧ ascending set = true ∧
    decode 0x09 (.nodeNew k id listeners frames) = .ok (.nodeInit k id set frames)) ∧
  (∀ k, decode 0x0A (.node k) = .ok (.enterArbitration k)) ∧
  (∀ k, decode 0x0B (.node k) = .ok (.enterIdle k)) ∧
  (∀ k, decode 0x0C (.node k) = .ok (.enterSending k)) ∧
  (∀ k, decode 0x0D (.node k) = .ok (.enterReceiving k)) ∧
  (∀ k, decode 0x0E (.node k) = .ok (.transmit k)) ∧
  (∀ k, decode 0x0F (.node k) = .ok (.receive k)) ∧
  (∀ k, decode 0x10 (.node k) = .ok (.ackSuccess k)) ∧
  (∀ k, decode 0x11 (.node k) = .ok (.ackFailure k)) ∧
  (∀ k, decode 0x12 (.node k) = .ok (.evict k)) ∧
  decode 0x13 .none = .ok .arbitrate ∧
  decode 0x14 .none = .ok .round ∧
  (∀ errorLimit dupIdPolicy nodeSpecs,
    ∃ specs : List NodeSpec, specs.length = nodeSpecs.length ∧
      (∀ (j : Nat) (n : NodeSpec), nodeSpecs[j]? = some n → ∃ m : NodeSpec, specs[j]? = some m ∧ m.id = n.id ∧ m.frames = n.frames ∧
        (∀ x, x ∈ m.listeners ↔ x ∈ n.listeners) ∧ ascending m.listeners = true) ∧
      decode 0x15 (.setup errorLimit dupIdPolicy nodeSpecs) = .ok (.setup errorLimit dupIdPolicy specs)) ∧
  decode 0x16 .none = .ok .step ∧
  decode 0x17 .none = .ok .run ∧
  decode 0x18 .none = .ok .pause ∧
  decode 0x19 .none = .ok .stop ∧
  decode 0x1A .none = .ok .resume

/-- Decoding the command of a well-formed operation gives the operation back, every operand with it (R93, R94). -/
def Obligations.DecodeEncodeAgree : Prop :=
  ∀ i : Instr, i.wf = true → decode (encode i).op (encode i).args = .ok i

/-- The other direction: an operation the decoder reads carries the code it was read from, and its own command decodes to
it again (R93: each code names one operation). -/
def Obligations.DecodedOperationReencodes : Prop :=
  ∀ (op : BitVec 5) (args : Args) (i : Instr), decode op args = .ok i →
    (encode i).op = op ∧ decode (encode i).op (encode i).args = .ok i

/-- When the next command decodes to a well-formed operation that the host may issue, the step is that operation, on the
state with the command taken from the queue (R249; the queue is log entry 4). Every operation may be issued but for the
node-level ones after `SETUP`, which need a host that accepts the loss of the invariants (R160, R296; log entry 10). -/
def Obligations.StepRunsDecodedCommand : Prop :=
  ∀ (s : State) (c : Command) (rest : List Command) (i : Instr),
    s.drvRunning = false → s.seqPhase = .idle → s.commands = c :: rest →
    decode c.op c.args = .ok i → i.wf = true →
    (nodeLevel i = true → s.drvSetupDone = true → s.hostDirect = true) → step s = exec i { s with commands := rest }

/-- The other steps: a looping `RUN` goes on after the requests that reached it (R249, log entry 7); with no command the
block keeps all state (R54, R285); a reserved code, operands of a wrong form (log entry 8) and ill-formed operands (log
entry 8) are refused, and so is a node-level command or `ROUND` after `SETUP` (R160, R268, R298) from a host that does not
accept the loss of the invariants (log entry 10). -/
def Obligations.StepOtherwise : Prop :=
  (∀ s : State, s.drvRunning = true →
    step s =
      exec .run
        { s with
          arrivals := s.arrivals.tail
          drvPauseReq := s.drvPauseReq || (s.arrivals.head?.map Arrival.pause).getD false
          drvStopReq := s.drvStopReq || (s.arrivals.head?.map Arrival.stop).getD false }) ∧
  (∀ s : State, s.drvRunning = false → s.commands = [] → step s = .next s) ∧
  (∀ (s : State) (c : Command) (rest : List Command),
    s.drvRunning = false → s.seqPhase = .idle → s.commands = c :: rest →
      (0x1B ≤ c.op.toNat → step s = .refused .reservedCommand) ∧
      (decode c.op c.args = .error .operandForm → step s = .refused .operandForm) ∧
      (∀ i, decode c.op c.args = .ok i → i.wf = false → step s = .refused .illFormedOperand) ∧
      (∀ i, decode c.op c.args = .ok i → i.wf = true → nodeLevel i = true → s.drvSetupDone = true →
        s.hostDirect = false → step s = .refused .directNodeCommand))

/-! ## The CRC-16 generator (40_crc16.md) -/

/-- R112: `CRC16` starts from 0xFFFF and folds `CRC_BYTE` over the bytes in order, on any number of bytes. -/
def Obligations.Crc16FoldsCrcByte : Prop :=
  ∀ s : State, exec (.crc16 []) s = .next { s with result := .word 0xFFFF } ∧
    ∀ (bytes : List Byte) (b : Byte), ∃ c d : CrcWord,
      exec (.crc16 bytes) s = .next { s with result := .word c } ∧
      exec (.crcByte c b) s = .next { s with result := .word d } ∧
      exec (.crc16 (bytes ++ [b])) s = .next { s with result := .word d }

/-- R114: `CRC16` and `CRC_BYTE` compute what the bit-serial shift register computes. -/
def Obligations.CrcEqualsSerialRegister : Prop :=
  ∀ s : State,
    (∀ bytes, exec (.crc16 bytes) s = .next { s with result := .word (crcSerial (messageBits bytes)) }) ∧
    (∀ crc b, exec (.crcByte crc b) s =
      .next { s with result := .word ((bin 8 b.toNat).foldl crcSerialBit crc) })

/-- R115: the algebraic form, over GF(2): the remainder of the shifted message and the shifted initial value modulo
x^16 + x^12 + x^5 + 1. -/
def Obligations.CrcIsPolynomialRemainder : Prop :=
  ∀ bytes : List Byte,
    let poly : Bits → Polynomial (ZMod 2) := fun s =>
      s.foldl (fun p b => p * Polynomial.X + Polynomial.C (if b then 1 else 0)) 0
    let g : Polynomial (ZMod 2) := Polynomial.X ^ 16 + Polynomial.X ^ 12 + Polynomial.X ^ 5 + 1
    poly (bin 16 (crc16 bytes).toNat) =
      (poly (messageBits bytes) * Polynomial.X ^ 16
        + poly (List.replicate 16 true) * Polynomial.X ^ (8 * bytes.length)) %ₘ g

/-- R117: two messages of one length that differ in exactly one bit have different CRCs. -/
def Obligations.CrcDetectsEverySingleBitFlip : Prop :=
  ∀ (data : List Byte) (byteIndex bitIndex : Nat), byteIndex < data.length → bitIndex < 8 →
    crc16 (data.modify byteIndex fun b => b ^^^ ((1 : Byte) <<< bitIndex)) ≠ crc16 data

/-! ## The frame encoder/decoder (41_frame.md, 30_encoding.md) -/

/-- R131: `CONSTRUCT` builds every field, raises a construction error on a priority out of range or an empty payload, and
is refused on more than 15 bytes. -/
def Obligations.ConstructChecksThenBuilds : Prop :=
  ∀ (time : Nat) (data : List Byte) (priority : Int) (s : State),
    (0 ≤ priority → priority ≤ 2047 → data ≠ [] → data.length ≤ 15 →
      ∃ f : Frame, exec (.construct time data priority) s = .next { s with result := .frame f } ∧
        f.time = time ∧ (f.priority.toNat : Int) = priority ∧ f.data = data ∧
        f.crc = crcSerial (messageBits data) ∧
        arbitrationId f = bin 11 priority.toNat ∧
        stuffBit f = (if priority % 32 = 0 then [true] else if priority % 32 = 31 then [false] else []) ∧
        dlc f = data.length ∧ dlcString f = bin 4 data.length ∧ dataBits f = messageBits data ∧
        frameBits f =
          arbitrationId f ++ stuffBit f ++ [false] ++ [false] ++ [false] ++ dlcString f ++ dataBits f ++
            bin 16 f.crc.toNat ++ [true, true] ++ List.replicate 7 true ++ [true, true, true]) ∧
    (priority < 0 ∨ 2047 < priority ∨ data = [] →
      exec (.construct time data priority) s = .next { s with result := .error .constructionError }) ∧
    (0 ≤ priority → priority ≤ 2047 → 15 < data.length →
      exec (.construct time data priority) s = .refused .payloadTooLong)

/-- R23: `arbitrationId` is the 11-character binary numeral of the priority, the most significant bit at index 0. -/
def Obligations.IdentifierIsPriorityInBinary : Prop :=
  ∀ f : Frame, (arbitrationId f).length = 11 ∧ val (arbitrationId f) = f.priority.toNat ∧
    ∀ i < 11, (arbitrationId f)[i]? = some (f.priority.toNat.testBit (10 - i))

/-- R24: the stuff bit is the complement of a run of five equal bits at the end of the identifier, and absent without
one. -/
def Obligations.StuffBitFollowsFiveEqualBits : Prop :=
  ∀ f : Frame,
    (stuffBit f = [true] ↔ field (arbitrationId f) 6 5 = List.replicate 5 false) ∧
    (stuffBit f = [true] ↔ f.priority.toNat % 32 = 0) ∧
    (stuffBit f = [false] ↔ field (arbitrationId f) 6 5 = List.replicate 5 true) ∧
    (stuffBit f = [false] ↔ f.priority.toNat % 32 = 31) ∧
    (stuffBit f = [] ↔ f.priority.toNat % 32 ≠ 0 ∧ f.priority.toNat % 32 ≠ 31)

/-- R82, R83: `ENCODE` puts every field at its place, and the length of the string is 46 + s + 8L, from 54 to 167. -/
def Obligations.EncodeFieldPositions : Prop :=
  ∀ (f : Frame) (s : State), f.wf = true → ∃ e : Bits,
    exec (.encode f) s = .next { s with result := .bits e } ∧
    let k := (stuffBit f).length
    let l := f.data.length
    e.length = 46 + k + 8 * l ∧ 54 ≤ e.length ∧ e.length ≤ 167 ∧
    field e 0 11 = bin 11 f.priority.toNat ∧
    field e 11 k = stuffBit f ∧
    field e (11 + k) 1 = [false] ∧
    field e (12 + k) 1 = [false] ∧
    field e (13 + k) 1 = [false] ∧
    field e (14 + k) 4 = bin 4 l ∧
    (∀ j b, f.data[j]? = some b → field e (18 + k + 8 * j) 8 = bin 8 b.toNat) ∧
    field e (18 + k + 8 * l) 16 = bin 16 f.crc.toNat ∧
    field e (34 + k + 8 * l) 2 = [true, true] ∧
    field e (36 + k + 8 * l) 7 = List.replicate 7 true ∧
    field e (43 + k + 8 * l) 3 = [true, true, true]

/-- R138, the first law: `DECODE(ENCODE(f)) = (f.priority, f.data, f.crc)`. -/
def Obligations.FrameDecodeInvertsEncode : Prop :=
  ∀ (f : Frame) (s : State), f.wf = true →
    exec (.decode (frameBits f)) s = .next { s with result := .fields f.priority f.data f.crc }

/-- R138, the second law: `DECODE` accepts exactly the strings `ENCODE` makes, with the fields they were made of, and
raises `DecodeError` on every other string. -/
def Obligations.FrameDecodeAcceptsOnlyEncodings : Prop :=
  ∀ (bits : Bits) (s : State),
    (∃ f : Frame, f.wf = true ∧ frameBits f = bits ∧
      exec (.decode bits) s = .next { s with result := .fields f.priority f.data f.crc }) ∨
    ((∀ f : Frame, f.wf = true → frameBits f ≠ bits) ∧
      exec (.decode bits) s = .next { s with result := .error .decodeError })

/-- R145: `CORRUPT` flips the drawn bit of the drawn byte, for every draw, and changes nothing else; the same draws a
second time restore the frame. -/
def Obligations.CorruptFlipsTheDrawnBit : Prop :=
  ∀ (f : Frame) (byteIndex bitIndex : Nat) (s : State), f.wf = true → byteIndex < f.data.length → bitIndex < 8 →
    ∃ g : Frame, exec (.corrupt f byteIndex bitIndex) s = .next { s with result := .frame g } ∧
      g.time = f.time ∧ g.priority = f.priority ∧ g.crc = f.crc ∧ g.data.length = f.data.length ∧
      (∀ j, j ≠ byteIndex → g.data[j]? = f.data[j]?) ∧
      (∃ b c : Byte, f.data[byteIndex]? = some b ∧ g.data[byteIndex]? = some c ∧
        ∀ m < 8, c.getLsbD m = (b.getLsbD m ^^ decide (m = bitIndex))) ∧
      dataBits g = messageBits g.data ∧
      exec (.corrupt g byteIndex bitIndex) s = .next { s with result := .frame f }

/-- R148: `REPAIR` sets `crc` to the CRC of the current data and changes nothing else; a second `REPAIR` changes nothing,
nor does the repair of a valid frame; the repaired frame is valid. -/
def Obligations.RepairRecomputesCrc : Prop :=
  ∀ (f : Frame) (s : State), ∃ g : Frame,
    exec (.repair f) s = .next { s with result := .frame g } ∧
    g.time = f.time ∧ g.priority = f.priority ∧ g.data = f.data ∧ g.crc = crcSerial (messageBits f.data) ∧
    exec (.repair g) s = .next { s with result := .frame g } ∧
    (f.crc = crcSerial (messageBits f.data) → g = f) ∧
    exec (.isvalid g) s = .next { s with result := .valid true }

/-- R150: `ISVALID` compares the CRC of the data with the stored one. -/
def Obligations.IsValidComparesCrc : Prop :=
  ∀ (f : Frame) (s : State),
    exec (.isvalid f) s = .next { s with result := .valid (decide (crcSerial (messageBits f.data) = f.crc)) }

/-- DOC00 §8 properties 2 and 3 (R132, R146, R148): valid after construction, invalid after any one corruption, valid
again after the repair, with the corrupted data. -/
def Obligations.CorruptionLifecycle : Prop :=
  ∀ (time : Nat) (data : List Byte) (priority : Int) (byteIndex bitIndex : Nat) (s : State),
    0 ≤ priority → priority ≤ 2047 → data.length ≤ 15 → byteIndex < data.length → bitIndex < 8 →
    ∃ f g h : Frame,
      exec (.construct time data priority) s = .next { s with result := .frame f } ∧
      exec (.isvalid f) s = .next { s with result := .valid true } ∧
      exec (.corrupt f byteIndex bitIndex) s = .next { s with result := .frame g } ∧
      exec (.isvalid g) s = .next { s with result := .valid false } ∧
      exec (.repair g) s = .next { s with result := .frame h } ∧
      exec (.isvalid h) s = .next { s with result := .valid true } ∧
      h.data = g.data ∧ g.data ≠ f.data

/-! ## The node operations (42_node.md) -/

/-- R161: `NODE_INIT` writes a fresh record into an unoccupied slot; a node that lists itself is refused. -/
def Obligations.NodeInitWritesFreshRecord : Prop :=
  ∀ (k id : Nat) (listeners : List Nat) (frames : List Frame) (s : State),
    k < s.nodes.length → nodeAt s k = none →
    (id ∉ listeners →
      exec (.nodeInit k id listeners frames) s =
        .next
          { s with
            nodes := s.nodes.set k
              (some
                { id := id, pending := frames.tail, next := frames.head?, listeners := listeners, status := .idle,
                  transmitErrors := 0, receiveErrors := 0 })
            result := .none }) ∧
    (id ∈ listeners → exec (.nodeInit k id listeners frames) s = .refused .selfListener)

/-- R162 to R165: each `ENTER_*` writes the status of its node and emits one `StatusChanged`, nothing else. The result
that stands for the description string is log entry 6. -/
def Obligations.EnterOperationsWriteStatusOnly : Prop :=
  ∀ (k : Nat) (n : Node) (s : State), nodeAt s k = some n →
    let after := fun st : Status =>
      { s with
        nodes := s.nodes.set k (some { n with status := st })
        events := s.events ++ [⟨s.busTick, .statusChanged n.id st⟩]
        result := .description n.id st }
    exec (.enterArbitration k) s = .next (after .arbitrating) ∧
    exec (.enterIdle k) s = .next (after .idle) ∧
    exec (.enterSending k) s = .next (after .sending) ∧
    exec (.enterReceiving k) s = .next (after .receiving)

/-- R166: `TRANSMIT` puts a copy of the head frame on the bus, or is refused. -/
def Obligations.TransmitPublishesHead : Prop :=
  ∀ (k : Nat) (n : Node) (s : State), nodeAt s k = some n →
    (∀ f, n.status = .sending → n.next = some f →
      exec (.transmit k) s = .next { s with busOnBus := some f, result := .none }) ∧
    (n.status ≠ .sending ∨ n.next = none → exec (.transmit k) s = .refused .transmitPrecondition)

/-- R171: `RECEIVE` answers dominant on a valid frame and changes nothing; on an invalid frame it counts a receive error
and answers empty; without a frame on the bus it is refused. -/
def Obligations.ReceiveValidatesOnBus : Prop :=
  ∀ (k : Nat) (n : Node) (s : State), nodeAt s k = some n →
    (∀ f, s.busOnBus = some f → crcSerial (messageBits f.data) = f.crc →
      exec (.receive k) s = .next { s with result := .ack true }) ∧
    (∀ f, s.busOnBus = some f → crcSerial (messageBits f.data) ≠ f.crc →
      exec (.receive k) s =
        .next
          { s with
            nodes := s.nodes.set k (some { n with receiveErrors := n.receiveErrors + 1 })
            result := .ack false }) ∧
    (s.busOnBus = none → exec (.receive k) s = .refused .receiveEmptyBus)

/-- R167: `ACK_SUCCESS` replaces the head frame by the next queued one, or `null`, and leaves the counters alone. -/
def Obligations.AckSuccessDequeues : Prop :=
  ∀ (k : Nat) (n : Node) (s : State), nodeAt s k = some n →
    (n.next ≠ none →
      exec (.ackSuccess k) s =
        .next
          { s with
            nodes := s.nodes.set k (some { n with next := n.pending.head?, pending := n.pending.tail })
            result := .none }) ∧
    (n.next = none → exec (.ackSuccess k) s = .refused .ackWithoutFrame)

/-- R169: `ACK_FAILURE` counts a transmit error and repairs the head frame, which stays: the node is eligible again at
every tick its frame's time allows, and a valid frame is not changed. -/
def Obligations.AckFailureCountsAndRepairs : Prop :=
  ∀ (k : Nat) (n : Node) (s : State), nodeAt s k = some n →
    (∀ f, n.next = some f → ∃ (g : Frame) (t : State),
      g.time = f.time ∧ g.priority = f.priority ∧ g.data = f.data ∧ g.crc = crcSerial (messageBits f.data) ∧
      (f.crc = crcSerial (messageBits f.data) → g = f) ∧
      t =
        { s with
          nodes := s.nodes.set k (some { n with transmitErrors := n.transmitErrors + 1, next := some g })
          result := .none } ∧
      exec (.ackFailure k) s = .next t ∧
      ∀ tick, f.time ≤ tick → eligible { t with busTick := tick } k = true) ∧
    (n.next = none → exec (.ackFailure k) s = .refused .ackWithoutFrame)

/-- R175: `EVICT` makes the node Evicted, takes it out of `bus.connected` keeping the order of the rest, and emits
`NodeEvicted`; the rest of the node stays as it is. -/
def Obligations.EvictDisconnects : Prop :=
  ∀ (k : Nat) (n : Node) (s : State), nodeAt s k = some n →
    exec (.evict k) s =
      .next
        { s with
          nodes := s.nodes.set k (some { n with status := .evicted })
          busConnected := s.busConnected.filter (· ≠ k)
          events := s.events ++ [⟨s.busTick, .nodeEvicted n.id⟩]
          result := .none }

/-- The model's choice, log entry 9: a node command on a slot that holds no node is refused, `NODE_INIT` is on a slot that
does not exist or is occupied, and `SETUP` is on more node specs than slots and, at the first node spec it can not launch,
on a slot that is occupied (log entry 16: the node specs are looked at in order, after the preconditions on all of
them). -/
def Obligations.NodeOperandNamesANode : Prop :=
  (∀ (k : Nat) (s : State), nodeAt s k = none →
    exec (.enterArbitration k) s = .refused .noNodeInSlot ∧
    exec (.enterIdle k) s = .refused .noNodeInSlot ∧
    exec (.enterSending k) s = .refused .noNodeInSlot ∧
    exec (.enterReceiving k) s = .refused .noNodeInSlot ∧
    exec (.transmit k) s = .refused .noNodeInSlot ∧
    exec (.receive k) s = .refused .noNodeInSlot ∧
    exec (.ackSuccess k) s = .refused .noNodeInSlot ∧
    exec (.ackFailure k) s = .refused .noNodeInSlot ∧
    exec (.evict k) s = .refused .noNodeInSlot) ∧
  (∀ (k id : Nat) (listeners : List Nat) (frames : List Frame) (s : State),
    (s.nodes.length ≤ k → exec (.nodeInit k id listeners frames) s = .refused .noSuchSlot) ∧
    (∀ n, nodeAt s k = some n → exec (.nodeInit k id listeners frames) s = .refused .slotOccupied)) ∧
  (∀ (errorLimit : Nat) (policy : DupIdPolicy) (specs : List NodeSpec) (s : State),
    s.drvSetupDone = false → (specs.map NodeSpec.id).Nodup →
      (s.nodes.length < specs.length → exec (.setup errorLimit policy specs) s = .refused .tooManyNodes) ∧
      (∀ j n, specs.length ≤ s.nodes.length → 1 ≤ errorLimit → j < specs.length → nodeAt s j = some n →
        (∀ i < j, nodeAt s i = none ∧ ∀ m, specs[i]? = some m → m.id ∉ m.listeners) →
        exec (.setup errorLimit policy specs) s = .refused .slotOccupied))

/-! ## The arbitrator (43_arbiter.md) -/

/-- R198: with pairwise distinct priorities there is a winner whenever a node is eligible, and it is the contender with
the smallest priority value. -/
def Obligations.LowestPriorityValueWins : Prop :=
  ∀ s : State, busQuiet s = true → s.busConnected.Nodup → DistinctHeads s → eligibleSlots s ≠ [] →
    ∃ (w : Nat) (t : State), exec .arbitrate s = .next t ∧ t.seqWinner = some w ∧
      t.result = .arbitration (some w) t.seqWonAt ∧ w ∈ eligibleSlots s ∧
      ∀ k ∈ eligibleSlots s, headPriority s w ≤ headPriority s k

/-- R195, R197, R199: `ARBITRATE` when it selects w: the winner, `wonAt` (the number of identifier bits compared before w
was the only contender left, 11 if contenders with its identifier are left), and the frame: the losers are Idle again, the
winner and those with its identifier stay Arbitrating, and beside statuses, events, the result and the arbitration
registers nothing changes. -/
def Obligations.ArbitrationSelectsWinner : Prop :=
  ∀ (s : State) (w : Nat), busQuiet s = true → s.busConnected.Nodup → IsSelected s w →
    ∃ t : State, exec .arbitrate s = .next t ∧ t.seqWinner = some w ∧ t.seqWonAt ≤ 11 ∧
      t.seqBitIndex = t.seqWonAt ∧ t.result = .arbitration (some w) t.seqWonAt ∧
      (∀ k ∈ eligibleSlots s, headPriority s k ≠ headPriority s w →
        (headId s k).take t.seqWonAt ≠ (headId s w).take t.seqWonAt) ∧
      (∀ j < t.seqWonAt, ∃ k ∈ eligibleSlots s, k ≠ w ∧ (headId s k).take j = (headId s w).take j) ∧
      (¬ IsWinner s w → t.seqWonAt = 11) ∧
      (∀ k, nodeAt t k =
        if k ∈ tiedWith s w then (nodeAt s k).map ({ · with status := .arbitrating }) else nodeAt s k) ∧
      t.busConnected = s.busConnected ∧ t.busOnBus = s.busOnBus ∧ t.seqPhase = s.seqPhase ∧
      t.seqAckSeen = s.seqAckSeen ∧ restOf t = restOf s

/-- R226 lines 1 to 4: the events of `ARBITRATE` when it selects w, in their order, every one at the tick of the bus. -/
def Obligations.ArbitrationEventOrder : Prop :=
  ∀ (s : State) (w : Nat) (n : Node), busQuiet s = true → s.busConnected.Nodup → IsSelected s w →
    nodeAt s w = some n →
    ∃ t : State, exec .arbitrate s = .next t ∧
      t.events = s.events ++
        (arbitrationEvents s w t.seqWonAt ++ [EventKind.arbitrationWon n.id t.seqWonAt]).map fun e => ⟨s.busTick, e⟩

/-- R200: with nobody eligible `ARBITRATE` has no winner and emits nothing, and `ROUND` emits only `RoundReset`. -/
def Obligations.NobodyEligible : Prop :=
  ∀ s : State, eligibleSlots s = [] → busQuiet s = true →
    exec .arbitrate s =
      .next { s with seqWinner := none, seqWonAt := 0, seqBitIndex := 11, result := .arbitration none 0 } ∧
    (s.drvSetupDone = true → s.seqPhase = .idle →
      exec .round s =
        .next
          { s with
            seqWinner := none
            seqWonAt := 0
            seqBitIndex := 11
            events := s.events ++ [⟨s.busTick, .roundReset⟩]
            result := .none })

/-- R199: two contenders that share the smallest priority value. Under `refuse` the operation is refused; under
`last_dominant` `wonAt` is 11, and the last of them in `bus.connected` order wins, or nobody if the value is 2047. -/
def Obligations.DuplicateIdentifiers : Prop :=
  ∀ (s : State) (k k' : Nat), busQuiet s = true → s.busConnected.Nodup → TiedSmallest s k k' →
    (s.cfgDupIdPolicy = .refuse → exec .arbitrate s = .refused .duplicateIds) ∧
    (s.cfgDupIdPolicy = .lastDominant → ∃ t : State, exec .arbitrate s = .next t ∧
      t.seqWinner = (if headPriority s k = 2047 then none else (tiedWith s k).getLast?) ∧
      t.seqWonAt = 11 ∧ t.result = .arbitration t.seqWinner 11)

/-- Where `ARBITRATE`, `ROUND`, `STEP` and `RUN` are refused: before `SETUP` (X11); with a precondition of R195 or R210
unmet (that this is a refusal, and its name, is log entry 9); and under policy `refuse` when two contenders share the
smallest priority value (R199, X6). -/
def Obligations.RoundRefusals : Prop :=
  (∀ s : State, (∃ k ∈ s.busConnected, statusIs s .idle k = false) ∨ s.busOnBus ≠ none →
    exec .arbitrate s = .refused .arbitratePrecondition) ∧
  (∀ s : State, s.drvSetupDone = false →
    exec .round s = .refused .notSetUp ∧ exec .step s = .refused .notSetUp ∧ exec .run s = .refused .notSetUp) ∧
  (∀ s : State, s.drvSetupDone = true →
    (∃ k ∈ s.busConnected, statusIs s .idle k = false) ∨ s.busOnBus ≠ none ∨ s.seqPhase ≠ .idle →
    exec .round s = .refused .roundPrecondition ∧ exec .step s = .refused .roundPrecondition ∧
      (runReturns s = false → exec .run s = .refused .roundPrecondition)) ∧
  (∀ (s : State) (k k' : Nat), RoundReady s → s.cfgDupIdPolicy = .refuse →
    (TiedSmallest s k k' → exec .round s = .refused .duplicateIds) ∧
    (TiedSmallest { s with busTick := s.drvTick } k k' →
      exec .step s = .refused .duplicateIds ∧
        (s.drvPauseReq = false → s.drvStopReq = false → exec .run s = .refused .duplicateIds)))

/-! ## The protocol sequencer (44_sequencer.md) -/

/-- R216, R219: the round that w wins, alone or as the last of several with its identifier (R199), with a valid head frame
and an active listener: the frame is dequeued, the counters and every other node are as before, nobody is evicted.
The values of the sequencer registers after the round rest on log entry 11 (DEDUCED). -/
def Obligations.RoundDeliversValidFrame : Prop :=
  ∀ (s : State) (w : Nat) (n : Node) (f : Frame),
    RoundReady s → IsSelected s w → nodeAt s w = some n → n.next = some f → n.id ∉ n.listeners →
    n.transmitErrors < s.cfgErrorLimit → frameValid f = true → activeListeners s w ≠ [] →
    ∃ t : State, exec .round s = .next t ∧
      (∀ k, nodeAt t k =
        if k = w then some { n with next := n.pending.head?, pending := n.pending.tail } else nodeAt s k) ∧
      t.busConnected = s.busConnected ∧ t.busOnBus = none ∧ t.seqPhase = .idle ∧ t.seqWinner = some w ∧
      t.seqAckSeen = true ∧ t.result = .none ∧ restOf t = restOf s

/-- R216, R220, R222, R228: the round that w wins, alone or as the last of several with its identifier (R199), with no
active listener or an invalid head frame: one transmit error, the frame repaired and kept, one receive error for each active
listener of an invalid frame, eviction exactly if the count reaches the limit, every other node as before.
The values of the sequencer registers after the round rest on log entry 11 (DEDUCED). -/
def Obligations.RoundFailureCountsAndEvicts : Prop :=
  ∀ (s : State) (w : Nat) (n : Node) (f : Frame),
    RoundReady s → IsSelected s w → nodeAt s w = some n → n.next = some f → n.id ∉ n.listeners →
    frameValid f = false ∨ activeListeners s w = [] →
    ∃ t : State, exec .round s = .next t ∧
      nodeAt t w = some
        { n with
          transmitErrors := n.transmitErrors + 1
          next := some { f with crc := crcSerial (messageBits f.data) }
          status := if s.cfgErrorLimit ≤ n.transmitErrors + 1 then .evicted else .idle } ∧
      (∀ k, k ≠ w → nodeAt t k =
        if k ∈ activeListeners s w then
          (nodeAt s k).map fun m => { m with receiveErrors := m.receiveErrors + 1 }
        else nodeAt s k) ∧
      t.busConnected =
        (if s.cfgErrorLimit ≤ n.transmitErrors + 1 then s.busConnected.filter (· ≠ w) else s.busConnected) ∧
      t.busOnBus = none ∧ t.seqPhase = .idle ∧ t.seqWinner = some w ∧ t.seqAckSeen = false ∧ t.result = .none ∧
      restOf t = restOf s

/-- R226, R199: the events of a round that w wins, alone or as the last of several with its identifier, are exactly the
canonical sequence, all at the tick of the bus. That `seq.wonAt` keeps its value after the round is log entry 11
(DEDUCED). -/
def Obligations.RoundEmitsCanonicalEvents : Prop :=
  ∀ (s : State) (w : Nat) (n : Node) (f : Frame),
    RoundReady s → IsSelected s w → nodeAt s w = some n → n.next = some f → n.id ∉ n.listeners →
    n.transmitErrors < s.cfgErrorLimit →
    ∃ t : State, exec .round s = .next t ∧ t.seqWonAt = wonAtOf s w ∧
      t.events = s.events ++
        (arbitrationEvents s w (wonAtOf s w) ++ deliveryEvents s w n f).map fun e => ⟨s.busTick, e⟩

/-- R215: the bits on the bus in a round that w wins (the wired-AND at each compared index, then the fields) are the
winner's frame without its four `dlcString` bits. -/
def Obligations.BusCarriesFrameWithoutDlc : Prop :=
  ∀ (s : State) (w : Nat) (f : Frame), IsSelected s w → headFrame s w = some f →
    (List.range (wonAtOf s w)).map (busBit s w) ++ ((traceFields f (wonAtOf s w)).map Prod.snd).flatten =
      (frameBits f).take (14 + (stuffBit f).length) ++ (frameBits f).drop (18 + (stuffBit f).length)

/-- R212: a round whose preconditions hold, without duplicate contender identifiers or under `last_dominant`, always
completes, and the state after it satisfies the preconditions again. -/
def Obligations.RoundIsTotal : Prop :=
  ∀ s : State, RoundReady s → NoSelfListeners s → (s.cfgDupIdPolicy = .lastDominant ∨ DistinctHeads s) →
    ∃ t : State, exec .round s = .next t ∧ RoundReady t

/-! ## The driver (45_driver.md) -/

/-- R50, R240: the values after `RESET`, of the reset state for every number of slots (R7: `N_NODES` is OPEN) and of the
operation. The model's choices: the number of slots of `State.reset` (log entry 1), that the slots stay and the host's
ports and strap survive (log entries 4 and 10), and `drvRunning` and the result (log entries 7 and 6). -/
def Obligations.ResetGivesResetValues : Prop :=
  (∀ n : Nat, ResetValues (State.resetOf n) ∧ (State.resetOf n).nodes.length = n) ∧ ResetValues State.reset ∧
  ∀ s : State, s.seqPhase = .idle → ∃ t : State, exec .reset s = .next t ∧ ResetValues t ∧
    t.nodes.length = s.nodes.length ∧ t.drvRunning = false ∧ t.result = .none ∧ t.commands = s.commands ∧
    t.arrivals = s.arrivals ∧ t.hostDirect = s.hostDirect

/-- R241: `SETUP` on a bus that is not set up writes the configuration, one fresh node per spec in slots 0, 1, ..., and
connects them in that order; its refusals. Which refusal comes first where several preconditions fail is the model's
choice, log entry 16; slots that are too few or occupied are in `NodeOperandNamesANode`. -/
def Obligations.SetupLaunches : Prop :=
  ∀ (errorLimit : Nat) (policy : DupIdPolicy) (specs : List NodeSpec) (s : State), Inv s →
    (s.drvSetupDone = true → exec (.setup errorLimit policy specs) s = .refused .setupTwice) ∧
    (s.drvSetupDone = false → ¬ (specs.map NodeSpec.id).Nodup →
      exec (.setup errorLimit policy specs) s = .refused .duplicateNodeId) ∧
    (s.drvSetupDone = false → (specs.map NodeSpec.id).Nodup → specs.length ≤ s.nodes.length →
      (errorLimit = 0 → exec (.setup errorLimit policy specs) s = .refused .badErrorLimit) ∧
      (1 ≤ errorLimit → (∀ j < specs.length, nodeAt s j = none) →
        ((∃ n ∈ specs, n.id ∈ n.listeners) → exec (.setup errorLimit policy specs) s = .refused .selfListener) ∧
        ((∀ n ∈ specs, n.id ∉ n.listeners) →
          exec (.setup errorLimit policy specs) s =
            .next
              { s with
                cfgErrorLimit := errorLimit
                cfgDupIdPolicy := policy
                nodes :=
                  (specs.map fun n =>
                    some
                      { id := n.id, pending := n.frames.tail, next := n.frames.head?, listeners := n.listeners,
                        status := .idle, transmitErrors := 0, receiveErrors := 0 })
                    ++ s.nodes.drop specs.length
                busConnected := List.range specs.length
                events := s.events ++ specs.map fun n => ⟨0, .nodeConnected n.id⟩
                drvSetupDone := true
                result := .none })))

/-- R243: `STEP` copies the driver's tick to the bus, runs one round and advances the tick by 1; it completes whenever
that round does (R212), looks at no request, and needs a `SETUP`. -/
def Obligations.StepRunsOneRound : Prop :=
  (∀ s : State, s.drvSetupDone = false → exec .step s = .refused .notSetUp) ∧
  (∀ s t : State, exec .round { s with busTick := s.drvTick } = .next t →
    exec .step s = .next { t with drvTick := s.drvTick + 1 } ∧ t.busTick = s.drvTick) ∧
  (∀ s : State, RoundReady s → NoSelfListeners s →
    (s.cfgDupIdPolicy = .lastDominant ∨ DistinctHeads { s with busTick := s.drvTick }) →
    ∃ t : State, exec .step s = .next t ∧ t.busTick = s.drvTick ∧ t.drvTick = s.drvTick + 1 ∧ RoundReady t)

/-- R244: at each boundary `RUN` returns if no connected node has a head frame or a request is set, and takes one `STEP`
otherwise. That an iteration is a step of the machine, marked by `drvRunning`, is log entry 7. -/
def Obligations.RunLoopsOverStep : Prop :=
  (∀ s : State, s.drvSetupDone = false → exec .run s = .refused .notSetUp) ∧
  (∀ s : State, s.drvSetupDone = true →
    s.drvStopReq = true ∨ s.drvPauseReq = true ∨
      (∀ k ∈ s.busConnected, ∀ n, nodeAt s k = some n → n.next = none) →
    exec .run s = .next { s with drvRunning := false, result := .none }) ∧
  (∀ s : State, s.drvSetupDone = true → s.drvStopReq = false → s.drvPauseReq = false →
    (∃ k ∈ s.busConnected, ∃ n, nodeAt s k = some n ∧ n.next ≠ none) →
    (∀ t : State, exec .step s = .next t → exec .run s = .next { t with drvRunning := true }) ∧
    (RoundReady s → NoSelfListeners s →
      (s.cfgDupIdPolicy = .lastDominant ∨ DistinctHeads { s with busTick := s.drvTick }) →
      ∃ t : State, exec .run s = .next t ∧ t.drvRunning = true ∧ t.drvTick = s.drvTick + 1))

/-- R245, R247: `PAUSE` sets the pause request and `RESUME` clears it, nothing else. -/
def Obligations.PauseAndResume : Prop :=
  ∀ s : State,
    exec .pause s = .next { s with drvPauseReq := true, result := .none } ∧
    exec .resume s = .next { s with drvPauseReq := false, result := .none }

/-- R246: `STOP` sets the stop request, which nothing but `RESET` clears; every later `RUN` returns at once, and `STEP`
works as without it. -/
def Obligations.StopIsSticky : Prop :=
  (∀ s : State, exec .stop s = .next { s with drvStopReq := true, result := .none }) ∧
  (∀ (i : Instr) (s t : State), i ≠ .reset → exec i s = .next t → s.drvStopReq = true → t.drvStopReq = true) ∧
  (∀ s : State, s.drvStopReq = true → s.drvSetupDone = true →
    exec .run s = .next { s with drvRunning := false, result := .none }) ∧
  (∀ s t : State, exec .step s = .next t →
    exec .step { s with drvStopReq := true } = .next { t with drvStopReq := true })

/-- R244, R248: a looping `RUN` returns after finitely many steps, with the stop condition true, if no request arrives
and the undelivered frames of different nodes have different priorities (R297). -/
def Obligations.RunTerminates : Prop :=
  ∀ s : State, DriverInv s → s.drvRunning = true → DistinctFrames s →
    s.drvPauseReq = false → s.drvStopReq = false → s.arrivals = [] →
    ∃ (k : Nat) (t : State), Host.Core.run core k s = .next t ∧ t.drvRunning = false ∧ stopCondition t = true

/-- R301: under `last_dominant`, two eligible heads of priority 2047 on a bus where every head has that priority block
each other for ever: `RUN` goes on stepping and no node record changes. -/
def Obligations.TwoRecessiveHeadsBlockForever : Prop :=
  ∀ (s : State) (k k' : Nat), DriverInv s → s.drvRunning = true → s.cfgDupIdPolicy = .lastDominant →
    s.drvPauseReq = false → s.drvStopReq = false → s.arrivals = [] →
    k ∈ s.busConnected → k' ∈ s.busConnected → k ≠ k' →
    (∃ f, headFrame s k = some f ∧ f.time ≤ s.drvTick) → (∃ f, headFrame s k' = some f ∧ f.time ≤ s.drvTick) →
    (∀ j ∈ s.busConnected, ∀ f, headFrame s j = some f → f.priority.toNat = 2047) →
    ∀ m : Nat, ∃ t : State, Host.Core.run core m s = .next t ∧ t.drvRunning = true ∧ t.nodes = s.nodes

/-! ## Whole-machine rules -/

/-- The invariants hold at reset, for every number of slots (R50; the values the model chose are log entries 1 and 2). -/
def Obligations.ResetMeetsDriverInvariant : Prop := (∀ n : Nat, DriverInv (State.resetOf n)) ∧ DriverInv State.reset

/-- Every step keeps the invariant, whatever command the host issues. -/
def Obligations.EveryStepKeepsInvariant : Prop :=
  ∀ s t : State, Inv s → step s = .next t → Inv t

/-- R41, R34, R35: every step keeps the driver invariant, whatever commands wait, after `SETUP` with a host that does not
accept the loss of the invariants (R296, R298; the strap is log entry 10), and every step that runs no node-level command
does. -/
def Obligations.DriverStepKeepsDriverInvariant : Prop :=
  ∀ s t : State, DriverInv s →
    (s.drvSetupDone = true ∧ s.hostDirect = false) ∨ (∀ i u, fetch s = .issue i u → nodeLevel i = false) →
    step s = .next t → DriverInv t

/-- R30, R33, R35: no operation but `RESET` removes a node, changes its id or its listeners, or lowers one of its
counters. -/
def Obligations.CountersNeverDecrease : Prop :=
  ∀ (i : Instr) (s t : State) (k : Nat) (n : Node), i ≠ .reset → exec i s = .next t → nodeAt s k = some n →
    ∃ m : Node, nodeAt t k = some m ∧ m.id = n.id ∧ m.listeners = n.listeners ∧
      n.transmitErrors ≤ m.transmitErrors ∧ n.receiveErrors ≤ m.receiveErrors

/-- R31, R73, R133: the undelivered frames of a node are only ever taken from the front, never reordered or added to, and
their time, priority and data never change. -/
def Obligations.QueuesOnlyShrinkFromTheFront : Prop :=
  ∀ (i : Instr) (s t : State) (k : Nat) (n m : Node), i ≠ .reset → exec i s = .next t →
    nodeAt s k = some n → nodeAt t k = some m →
    (undelivered m).map (fun f => (f.time, f.priority, f.data)) <:+
      (undelivered n).map (fun f => (f.time, f.priority, f.data))

/-- R178, R175: a node that is not connected is never touched again by a driver command, and never connected again. -/
def Obligations.DisconnectedNodeIsFrozen : Prop :=
  ∀ (i : Instr) (s t : State) (k : Nat) (n : Node), i ≠ .reset → nodeLevel i = false ∨ i = .round →
    exec i s = .next t → nodeAt s k = some n → k ∉ s.busConnected →
    nodeAt t k = some n ∧ k ∉ t.busConnected

/-- R46: no operation but `RESET` takes an event from the stream or changes one, and every new event carries the tick of
the bus (R100). -/
def Obligations.EventStreamOnlyGrows : Prop :=
  ∀ (i : Instr) (s t : State), i ≠ .reset → exec i s = .next t →
    ∃ new : List Event, t.events = s.events ++ new ∧ ∀ e ∈ new, e.tick = t.busTick

/-- R168, R267: receive-error counters have no consequence: run without them, every operation ends the same way, in the
same state up to these counters. -/
def Obligations.ReceiveErrorsAreInert : Prop :=
  ∀ (i : Instr) (s : State), mapNext eraseRec (exec i s) = mapNext eraseRec (exec i (eraseRec s))

/-- R68, R42, R43, R211: who writes the shared registers; and `seq.phase` is after every operation what it was
before. -/
def Obligations.SharedRegistersHaveOwners : Prop :=
  ∀ (i : Instr) (s t : State), exec i s = .next t →
    (t.busConnected ≠ s.busConnected →
      i = .reset ∨ i = .round ∨ i = .step ∨ i = .run ∨ (∃ k, i = .evict k) ∨ (∃ l p n, i = .setup l p n)) ∧
    (t.busOnBus ≠ s.busOnBus → i = .reset ∨ (∃ k, i = .transmit k)) ∧
    (t.busTick ≠ s.busTick ∨ t.drvTick ≠ s.drvTick → i = .reset ∨ i = .step ∨ i = .run) ∧
    (t.cfgErrorLimit ≠ s.cfgErrorLimit ∨ t.cfgDupIdPolicy ≠ s.cfgDupIdPolicy ∨ t.drvSetupDone ≠ s.drvSetupDone →
      i = .reset ∨ (∃ l p n, i = .setup l p n)) ∧
    (t.drvPauseReq ≠ s.drvPauseReq → i = .reset ∨ i = .pause ∨ i = .resume) ∧
    (t.drvStopReq ≠ s.drvStopReq → i = .reset ∨ i = .stop) ∧
    t.hostDirect = s.hostDirect ∧
    t.seqPhase = s.seqPhase

/-- R68, R298: after `SETUP`, with a host that does not accept the loss of the invariants (log entry 10), a step changes
`bus.connected`, `bus.onBus`, `bus.tick` or a node record only if it runs `STEP` or `RUN`, whose round does, or `RESET`. -/
def Obligations.OnlyRoundsTouchTheBus : Prop :=
  ∀ s t : State, s.drvSetupDone = true → s.hostDirect = false → step s = .next t →
    t.busConnected ≠ s.busConnected ∨ t.busOnBus ≠ s.busOnBus ∨ t.busTick ≠ s.busTick ∨ t.nodes ≠ s.nodes →
    ∃ (i : Instr) (u : State), fetch s = .issue i u ∧ (i = .reset ∨ i = .step ∨ i = .run)

/-! ## The traffic generator's contract (45_driver.md section 4) -/

/-- R254: a payload of the reference generator is within `DATA_MAX`, so with a legal priority `CONSTRUCT` builds a frame of
it, and that frame is a legal operand of `NODE_INIT` and `SETUP`, corrupted or not. -/
def Obligations.ReferencePayloadIsAccepted : Prop :=
  ∀ (time : Nat) (data : List Byte) (priority : Int) (s : State),
    referencePayload data = true → 0 ≤ priority → priority ≤ 2047 →
    ∃ f : Frame, exec (.construct time data priority) s = .next { s with result := .frame f } ∧ f.wf = true ∧
      ∀ byteIndex bitIndex, byteIndex < data.length → bitIndex < 8 →
        ∃ g : Frame, exec (.corrupt f byteIndex bitIndex) s = .next { s with result := .frame g } ∧ g.wf = true
end

