-- ==== Sys2Proof/Laws/Bits.lean ====
section
/-!
SUPPORT. Bit strings and numbers (00_scope.md R11): `bin` and `val` are inverse to each other; the lengths of the fields
of a frame string; the CRC register is linear over XOR and loses nothing in a shift (40_crc16.md R118).
-/

namespace Sys2Proof.Machine

@[simp] theorem length_bin (n v : Nat) : (bin n v).length = n := by
  induction n with
  | zero => rfl
  | succ n ih => simp [bin, ih]

theorem val_foldl (s : Bits) (a : Nat) :
    s.foldl (fun acc b => 2 * acc + b.toNat) a = a * 2 ^ s.length + val s := by
  unfold val
  induction s generalizing a with
  | nil => simp
  | cons b s ih =>
    rw [List.foldl_cons, ih, List.foldl_cons, ih (2 * 0 + b.toNat), List.length_cons, pow_succ]
    ring

theorem val_cons (b : Bool) (s : Bits) : val (b :: s) = b.toNat * 2 ^ s.length + val s := by
  have h := val_foldl s (2 * 0 + b.toNat)
  simpa [val] using h

/-- A bit string stands for a number below 2 to its length. -/
theorem val_lt (s : Bits) : val s < 2 ^ s.length := by
  induction s with
  | nil => simp [val]
  | cons b s ih =>
    rw [val_cons, List.length_cons, pow_succ]
    cases b <;> simp <;> omega

/-- `val` inverts `bin` (R11). -/
theorem val_bin (n v : Nat) : val (bin n v) = v % 2 ^ n := by
  induction n with
  | zero => simp [bin, val, Nat.mod_one]
  | succ n ih =>
    rw [bin, val_cons, ih, length_bin, Nat.mod_pow_succ, Nat.testBit_eq_decide_div_mod_eq, mul_comm, add_comm]
    rcases Nat.mod_two_eq_zero_or_one (v / 2 ^ n) with h | h <;> simp [h]

/-- Only the low bits of the number count. -/
theorem bin_mod (n v : Nat) : bin n (v % 2 ^ n) = bin n v := by
  suffices h : ∀ m, n ≤ m → bin n (v % 2 ^ m) = bin n v from h n le_rfl
  induction n with
  | zero => simp [bin]
  | succ n ih =>
    intro m hm
    have hn : n < m := hm
    simp [bin, ih m (by omega), hn]

/-- `bin` inverts `val` (R11). -/
theorem bin_val (s : Bits) : bin s.length (val s) = s := by
  induction s with
  | nil => rfl
  | cons b s ih =>
    have hlt := val_lt s
    rw [List.length_cons, bin, val_cons]
    congr 1
    · rw [mul_comm, Nat.testBit_two_pow_mul_add _ hlt]
      cases b <;> simp
    · conv_rhs => rw [← ih]
      rw [← bin_mod s.length (b.toNat * 2 ^ s.length + val s), Nat.mul_add_mod_self_right, bin_mod]

@[simp] theorem length_arbitrationId (f : Frame) : (arbitrationId f).length = 11 := length_bin _ _

@[simp] theorem length_dlcString (f : Frame) : (dlcString f).length = 4 := length_bin _ _

@[simp] theorem length_crcBits (f : Frame) : (crcBits f).length = 16 := length_bin _ _

@[simp] theorem length_dataBits (f : Frame) : (dataBits f).length = 8 * f.data.length := by
  unfold dataBits
  induction f.data with
  | nil => rfl
  | cons b bs ih => simp [ih]; ring

/-- The places of 30_encoding.md R82 in numbers. -/
theorem frame_places (k n : Nat) :
    dlcAt k = 14 + k ∧ dataAt k = 18 + k ∧ crcAt k n = 18 + k + 8 * n ∧ trailerAt k n = 34 + k + 8 * n ∧
      frameLength k n = 46 + k + 8 * n := by
  simp only [frameLength, trailerAt, crcAt, dataAt, dlcAt, controlBits, controlBit, trailerBits, ackBits, eofBits,
    ifsBits, dlcBits, Config.idBits, Config.crcWidth, List.length_append, List.length_cons, List.length_nil]
  omega

/-- A stuff bit has length 0 or 1 (R24). -/
theorem length_stuffOf (id : Bits) : (stuffOf id).length ≤ 1 := by
  unfold stuffOf
  split
  · simp
  · split <;> simp

/-- One shift is linear over XOR (R118: "XOR has no carry"). -/
theorem crcShift_xor (a b : CrcWord) : crcShift (a ^^^ b) = crcShift a ^^^ crcShift b := by
  unfold crcShift
  rw [BitVec.msb_xor, BitVec.shiftLeft_xor_distrib]
  cases a.msb <;> cases b.msb <;> simp only [Bool.bne_true, Bool.bne_false, Bool.not_true, Bool.not_false, if_true,
    if_false, Bool.false_eq_true]
  · ac_rfl
  · ac_rfl
  · rw [show a <<< 1 ^^^ crcPoly.setWidth Config.crcWidth ^^^ (b <<< 1 ^^^ crcPoly.setWidth Config.crcWidth)
        = a <<< 1 ^^^ b <<< 1 ^^^ (crcPoly.setWidth Config.crcWidth ^^^ crcPoly.setWidth Config.crcWidth) by ac_rfl, BitVec.xor_self, BitVec.xor_zero]

/-- Eight shifts are linear over XOR. -/
theorem crcShifts_xor (n : Nat) (a b : CrcWord) : crcShifts n (a ^^^ b) = crcShifts n a ^^^ crcShifts n b := by
  induction n generalizing a b with
  | zero => rfl
  | succ n ih => rw [crcShifts, crcShift_xor, ih, crcShifts, crcShifts]

/-- `CRC_BYTE` of the two registers and two bytes XORed together is the XOR of the results. -/
theorem crcByte_xor (c d : CrcWord) (a b : Byte) : crcByte (c ^^^ d) (a ^^^ b) = crcByte c a ^^^ crcByte d b := by
  unfold crcByte
  rw [← crcShifts_xor, BitVec.setWidth_xor, BitVec.shiftLeft_xor_distrib]
  congr 1
  ac_rfl

/-- The empty message has the initial value (R112). -/
@[simp] theorem crc16_nil : crc16 [] = 0xFFFF := rfl

/-- One more byte is one more `CRC_BYTE` (R112). -/
theorem crc16_append (bytes more : List Byte) : crc16 (bytes ++ more) = more.foldl crcByte (crc16 bytes) := by
  simp [crc16]

/-- Repair makes a frame valid (R148, R150). -/
@[simp] theorem frameValid_repairFrame (f : Frame) : frameValid (repairFrame f) = true := by
  simp [frameValid, repairFrame]

/-- A new frame is valid (R132). -/
@[simp] theorem frameValid_newFrame (time : Nat) (data : List Byte) (priority : Nat) :
    frameValid (newFrame time data priority) = true := by
  simp [frameValid, newFrame]

/-- The repair of a valid frame changes nothing (R148). -/
theorem repairFrame_of_valid {f : Frame} (h : frameValid f = true) : repairFrame f = f := by
  have h' : crc16 f.data = f.crc := by simpa [frameValid] using h
  unfold repairFrame
  rw [h']

@[simp] theorem repairFrame_wf (f : Frame) : (repairFrame f).wf = f.wf := rfl

@[simp] theorem corruptFrame_wf (f : Frame) (i j : Nat) : (corruptFrame f i j).wf = f.wf := by
  simp [corruptFrame, Frame.wf]

end Sys2Proof.Machine
end

