-- ==== Sys2Proof/Laws/Decode.lean ====
section
/-!
SUPPORT. The canonical list of a set of ids: bringing a list into it gives a strictly ascending list with the same
members, and leaves a strictly ascending list as it is.
-/

namespace Sys2Proof

theorem mem_insertId {x y : Nat} {ids : List Nat} : y ∈ insertId x ids ↔ y = x ∨ y ∈ ids := by
  induction ids with
  | nil => simp [insertId]
  | cons z zs ih =>
    unfold insertId
    split
    · simp
    · split
      · subst_vars
        simp
      · simp only [List.mem_cons, ih]
        tauto

/-- The canonical list has the members of the list it was made from. -/
theorem mem_canonSet {y : Nat} {ids : List Nat} : y ∈ canonSet ids ↔ y ∈ ids := by
  induction ids with
  | nil => simp [canonSet]
  | cons x xs ih =>
    have : canonSet (x :: xs) = insertId x (canonSet xs) := rfl
    rw [this, mem_insertId, ih, List.mem_cons]

theorem ascending_cons {x : Nat} {ids : List Nat} :
    ascending (x :: ids) = true ↔ (∀ y ∈ ids, x < y) ∧ ascending ids = true := by
  induction ids generalizing x with
  | nil => simp [ascending]
  | cons y ys ih =>
    simp only [ascending, Bool.and_eq_true, decide_eq_true_eq, List.mem_cons, forall_eq_or_imp]
    constructor
    · rintro ⟨h, h'⟩
      exact ⟨⟨h, fun z hz => lt_trans h ((ih.mp h').1 z hz)⟩, h'⟩
    · rintro ⟨⟨h, -⟩, h'⟩
      exact ⟨h, h'⟩

theorem ascending_insertId {x : Nat} {ids : List Nat} (h : ascending ids = true) :
    ascending (insertId x ids) = true := by
  induction ids with
  | nil => rfl
  | cons y ys ih =>
    obtain ⟨hy, hys⟩ := ascending_cons.mp h
    unfold insertId
    split
    · rename_i hxy
      refine ascending_cons.mpr ⟨?_, h⟩
      intro z hz
      rcases List.mem_cons.mp hz with rfl | hz
      · exact hxy
      · exact lt_trans hxy (hy z hz)
    · rename_i hxy
      split
      · exact h
      · rename_i hne
        refine ascending_cons.mpr ⟨?_, ih hys⟩
        intro z hz
        rcases mem_insertId.mp hz with rfl | hz
        · omega
        · exact hy z hz

/-- The canonical list is strictly ascending. -/
theorem ascending_canonSet (ids : List Nat) : ascending (canonSet ids) = true := by
  induction ids with
  | nil => rfl
  | cons x xs ih => exact ascending_insertId ih

/-- A strictly ascending list is its own canonical list. -/
theorem canonSet_of_ascending {ids : List Nat} (h : ascending ids = true) : canonSet ids = ids := by
  induction ids with
  | nil => rfl
  | cons x xs ih =>
    obtain ⟨hx, hxs⟩ := ascending_cons.mp h
    have : canonSet (x :: xs) = insertId x (canonSet xs) := rfl
    rw [this, ih hxs]
    cases xs with
    | nil => rfl
    | cons y ys => simp [insertId, hx y (by simp)]

end Sys2Proof
end

