-- ==== Sys2Proof/Laws/State.lean ====
section
/-!
SUPPORT. One lemma per field of State for each operation that writes one of them: what the operation leaves as it was,
and what it writes. Later proofs cite these and unfold no record update.
-/

namespace Sys2Proof.Machine

@[simp] theorem emit_nodes (s : State) (e : EventKind) : (emit s e).nodes = s.nodes := rfl
@[simp] theorem emit_busConnected (s : State) (e : EventKind) : (emit s e).busConnected = s.busConnected := rfl
@[simp] theorem emit_busOnBus (s : State) (e : EventKind) : (emit s e).busOnBus = s.busOnBus := rfl
@[simp] theorem emit_busTick (s : State) (e : EventKind) : (emit s e).busTick = s.busTick := rfl
@[simp] theorem emit_drvTick (s : State) (e : EventKind) : (emit s e).drvTick = s.drvTick := rfl
@[simp] theorem emit_drvPauseReq (s : State) (e : EventKind) : (emit s e).drvPauseReq = s.drvPauseReq := rfl
@[simp] theorem emit_drvStopReq (s : State) (e : EventKind) : (emit s e).drvStopReq = s.drvStopReq := rfl
@[simp] theorem emit_drvSetupDone (s : State) (e : EventKind) : (emit s e).drvSetupDone = s.drvSetupDone := rfl
@[simp] theorem emit_drvRunning (s : State) (e : EventKind) : (emit s e).drvRunning = s.drvRunning := rfl
@[simp] theorem emit_cfgErrorLimit (s : State) (e : EventKind) : (emit s e).cfgErrorLimit = s.cfgErrorLimit := rfl
@[simp] theorem emit_cfgDupIdPolicy (s : State) (e : EventKind) : (emit s e).cfgDupIdPolicy = s.cfgDupIdPolicy := rfl
@[simp] theorem emit_seqPhase (s : State) (e : EventKind) : (emit s e).seqPhase = s.seqPhase := rfl
@[simp] theorem emit_seqBitIndex (s : State) (e : EventKind) : (emit s e).seqBitIndex = s.seqBitIndex := rfl
@[simp] theorem emit_seqWinner (s : State) (e : EventKind) : (emit s e).seqWinner = s.seqWinner := rfl
@[simp] theorem emit_seqWonAt (s : State) (e : EventKind) : (emit s e).seqWonAt = s.seqWonAt := rfl
@[simp] theorem emit_seqAckSeen (s : State) (e : EventKind) : (emit s e).seqAckSeen = s.seqAckSeen := rfl
@[simp] theorem emit_events (s : State) (e : EventKind) : (emit s e).events = s.events ++ [⟨s.busTick, e⟩] := rfl
@[simp] theorem emit_result (s : State) (e : EventKind) : (emit s e).result = s.result := rfl
@[simp] theorem emit_commands (s : State) (e : EventKind) : (emit s e).commands = s.commands := rfl
@[simp] theorem emit_arrivals (s : State) (e : EventKind) : (emit s e).arrivals = s.arrivals := rfl
@[simp] theorem emit_hostDirect (s : State) (e : EventKind) : (emit s e).hostDirect = s.hostDirect := rfl
@[simp] theorem emit_freeCount (s : State) (e : EventKind) : (emit s e).freeCount = s.freeCount := rfl

@[simp] theorem putNode_nodes (s : State) (k : Nat) (n : Node) : (putNode s k n).nodes = s.nodes.set k (some n) := rfl
@[simp] theorem putNode_busConnected (s : State) (k : Nat) (n : Node) : (putNode s k n).busConnected = s.busConnected := rfl
@[simp] theorem putNode_busOnBus (s : State) (k : Nat) (n : Node) : (putNode s k n).busOnBus = s.busOnBus := rfl
@[simp] theorem putNode_busTick (s : State) (k : Nat) (n : Node) : (putNode s k n).busTick = s.busTick := rfl
@[simp] theorem putNode_drvTick (s : State) (k : Nat) (n : Node) : (putNode s k n).drvTick = s.drvTick := rfl
@[simp] theorem putNode_drvPauseReq (s : State) (k : Nat) (n : Node) : (putNode s k n).drvPauseReq = s.drvPauseReq := rfl
@[simp] theorem putNode_drvStopReq (s : State) (k : Nat) (n : Node) : (putNode s k n).drvStopReq = s.drvStopReq := rfl
@[simp] theorem putNode_drvSetupDone (s : State) (k : Nat) (n : Node) : (putNode s k n).drvSetupDone = s.drvSetupDone := rfl
@[simp] theorem putNode_drvRunning (s : State) (k : Nat) (n : Node) : (putNode s k n).drvRunning = s.drvRunning := rfl
@[simp] theorem putNode_cfgErrorLimit (s : State) (k : Nat) (n : Node) : (putNode s k n).cfgErrorLimit = s.cfgErrorLimit := rfl
@[simp] theorem putNode_cfgDupIdPolicy (s : State) (k : Nat) (n : Node) : (putNode s k n).cfgDupIdPolicy = s.cfgDupIdPolicy := rfl
@[simp] theorem putNode_seqPhase (s : State) (k : Nat) (n : Node) : (putNode s k n).seqPhase = s.seqPhase := rfl
@[simp] theorem putNode_seqBitIndex (s : State) (k : Nat) (n : Node) : (putNode s k n).seqBitIndex = s.seqBitIndex := rfl
@[simp] theorem putNode_seqWinner (s : State) (k : Nat) (n : Node) : (putNode s k n).seqWinner = s.seqWinner := rfl
@[simp] theorem putNode_seqWonAt (s : State) (k : Nat) (n : Node) : (putNode s k n).seqWonAt = s.seqWonAt := rfl
@[simp] theorem putNode_seqAckSeen (s : State) (k : Nat) (n : Node) : (putNode s k n).seqAckSeen = s.seqAckSeen := rfl
@[simp] theorem putNode_events (s : State) (k : Nat) (n : Node) : (putNode s k n).events = s.events := rfl
@[simp] theorem putNode_result (s : State) (k : Nat) (n : Node) : (putNode s k n).result = s.result := rfl
@[simp] theorem putNode_commands (s : State) (k : Nat) (n : Node) : (putNode s k n).commands = s.commands := rfl
@[simp] theorem putNode_arrivals (s : State) (k : Nat) (n : Node) : (putNode s k n).arrivals = s.arrivals := rfl
@[simp] theorem putNode_hostDirect (s : State) (k : Nat) (n : Node) : (putNode s k n).hostDirect = s.hostDirect := rfl
@[simp] theorem putNode_freeCount (s : State) (k : Nat) (n : Node) : (putNode s k n).freeCount = s.freeCount := rfl

@[simp] theorem setPhase_nodes (s : State) (p : Phase) : (setPhase s p).nodes = s.nodes := rfl
@[simp] theorem setPhase_busConnected (s : State) (p : Phase) : (setPhase s p).busConnected = s.busConnected := rfl
@[simp] theorem setPhase_busOnBus (s : State) (p : Phase) : (setPhase s p).busOnBus = s.busOnBus := rfl
@[simp] theorem setPhase_busTick (s : State) (p : Phase) : (setPhase s p).busTick = s.busTick := rfl
@[simp] theorem setPhase_drvTick (s : State) (p : Phase) : (setPhase s p).drvTick = s.drvTick := rfl
@[simp] theorem setPhase_drvPauseReq (s : State) (p : Phase) : (setPhase s p).drvPauseReq = s.drvPauseReq := rfl
@[simp] theorem setPhase_drvStopReq (s : State) (p : Phase) : (setPhase s p).drvStopReq = s.drvStopReq := rfl
@[simp] theorem setPhase_drvSetupDone (s : State) (p : Phase) : (setPhase s p).drvSetupDone = s.drvSetupDone := rfl
@[simp] theorem setPhase_drvRunning (s : State) (p : Phase) : (setPhase s p).drvRunning = s.drvRunning := rfl
@[simp] theorem setPhase_cfgErrorLimit (s : State) (p : Phase) : (setPhase s p).cfgErrorLimit = s.cfgErrorLimit := rfl
@[simp] theorem setPhase_cfgDupIdPolicy (s : State) (p : Phase) : (setPhase s p).cfgDupIdPolicy = s.cfgDupIdPolicy := rfl
@[simp] theorem setPhase_seqPhase (s : State) (p : Phase) : (setPhase s p).seqPhase = p := rfl
@[simp] theorem setPhase_seqBitIndex (s : State) (p : Phase) : (setPhase s p).seqBitIndex = s.seqBitIndex := rfl
@[simp] theorem setPhase_seqWinner (s : State) (p : Phase) : (setPhase s p).seqWinner = s.seqWinner := rfl
@[simp] theorem setPhase_seqWonAt (s : State) (p : Phase) : (setPhase s p).seqWonAt = s.seqWonAt := rfl
@[simp] theorem setPhase_seqAckSeen (s : State) (p : Phase) : (setPhase s p).seqAckSeen = s.seqAckSeen := rfl
@[simp] theorem setPhase_events (s : State) (p : Phase) : (setPhase s p).events = s.events := rfl
@[simp] theorem setPhase_result (s : State) (p : Phase) : (setPhase s p).result = s.result := rfl
@[simp] theorem setPhase_commands (s : State) (p : Phase) : (setPhase s p).commands = s.commands := rfl
@[simp] theorem setPhase_arrivals (s : State) (p : Phase) : (setPhase s p).arrivals = s.arrivals := rfl
@[simp] theorem setPhase_hostDirect (s : State) (p : Phase) : (setPhase s p).hostDirect = s.hostDirect := rfl
@[simp] theorem setPhase_freeCount (s : State) (p : Phase) : (setPhase s p).freeCount = s.freeCount := rfl

@[simp] theorem setConnected_nodes (s : State) (ks : List Nat) : (setConnected s ks).nodes = s.nodes := rfl
@[simp] theorem setConnected_busConnected (s : State) (ks : List Nat) : (setConnected s ks).busConnected = ks := rfl
@[simp] theorem setConnected_busOnBus (s : State) (ks : List Nat) : (setConnected s ks).busOnBus = s.busOnBus := rfl
@[simp] theorem setConnected_busTick (s : State) (ks : List Nat) : (setConnected s ks).busTick = s.busTick := rfl
@[simp] theorem setConnected_drvTick (s : State) (ks : List Nat) : (setConnected s ks).drvTick = s.drvTick := rfl
@[simp] theorem setConnected_drvPauseReq (s : State) (ks : List Nat) : (setConnected s ks).drvPauseReq = s.drvPauseReq := rfl
@[simp] theorem setConnected_drvStopReq (s : State) (ks : List Nat) : (setConnected s ks).drvStopReq = s.drvStopReq := rfl
@[simp] theorem setConnected_drvSetupDone (s : State) (ks : List Nat) : (setConnected s ks).drvSetupDone = s.drvSetupDone := rfl
@[simp] theorem setConnected_drvRunning (s : State) (ks : List Nat) : (setConnected s ks).drvRunning = s.drvRunning := rfl
@[simp] theorem setConnected_cfgErrorLimit (s : State) (ks : List Nat) : (setConnected s ks).cfgErrorLimit = s.cfgErrorLimit := rfl
@[simp] theorem setConnected_cfgDupIdPolicy (s : State) (ks : List Nat) : (setConnected s ks).cfgDupIdPolicy = s.cfgDupIdPolicy := rfl
@[simp] theorem setConnected_seqPhase (s : State) (ks : List Nat) : (setConnected s ks).seqPhase = s.seqPhase := rfl
@[simp] theorem setConnected_seqBitIndex (s : State) (ks : List Nat) : (setConnected s ks).seqBitIndex = s.seqBitIndex := rfl
@[simp] theorem setConnected_seqWinner (s : State) (ks : List Nat) : (setConnected s ks).seqWinner = s.seqWinner := rfl
@[simp] theorem setConnected_seqWonAt (s : State) (ks : List Nat) : (setConnected s ks).seqWonAt = s.seqWonAt := rfl
@[simp] theorem setConnected_seqAckSeen (s : State) (ks : List Nat) : (setConnected s ks).seqAckSeen = s.seqAckSeen := rfl
@[simp] theorem setConnected_events (s : State) (ks : List Nat) : (setConnected s ks).events = s.events := rfl
@[simp] theorem setConnected_result (s : State) (ks : List Nat) : (setConnected s ks).result = s.result := rfl
@[simp] theorem setConnected_commands (s : State) (ks : List Nat) : (setConnected s ks).commands = s.commands := rfl
@[simp] theorem setConnected_arrivals (s : State) (ks : List Nat) : (setConnected s ks).arrivals = s.arrivals := rfl
@[simp] theorem setConnected_hostDirect (s : State) (ks : List Nat) : (setConnected s ks).hostDirect = s.hostDirect := rfl
@[simp] theorem setConnected_freeCount (s : State) (ks : List Nat) : (setConnected s ks).freeCount = s.freeCount := rfl

@[simp] theorem setOnBus_nodes (s : State) (f : Option Frame) : (setOnBus s f).nodes = s.nodes := rfl
@[simp] theorem setOnBus_busConnected (s : State) (f : Option Frame) : (setOnBus s f).busConnected = s.busConnected := rfl
@[simp] theorem setOnBus_busOnBus (s : State) (f : Option Frame) : (setOnBus s f).busOnBus = f := rfl
@[simp] theorem setOnBus_busTick (s : State) (f : Option Frame) : (setOnBus s f).busTick = s.busTick := rfl
@[simp] theorem setOnBus_drvTick (s : State) (f : Option Frame) : (setOnBus s f).drvTick = s.drvTick := rfl
@[simp] theorem setOnBus_drvPauseReq (s : State) (f : Option Frame) : (setOnBus s f).drvPauseReq = s.drvPauseReq := rfl
@[simp] theorem setOnBus_drvStopReq (s : State) (f : Option Frame) : (setOnBus s f).drvStopReq = s.drvStopReq := rfl
@[simp] theorem setOnBus_drvSetupDone (s : State) (f : Option Frame) : (setOnBus s f).drvSetupDone = s.drvSetupDone := rfl
@[simp] theorem setOnBus_drvRunning (s : State) (f : Option Frame) : (setOnBus s f).drvRunning = s.drvRunning := rfl
@[simp] theorem setOnBus_cfgErrorLimit (s : State) (f : Option Frame) : (setOnBus s f).cfgErrorLimit = s.cfgErrorLimit := rfl
@[simp] theorem setOnBus_cfgDupIdPolicy (s : State) (f : Option Frame) : (setOnBus s f).cfgDupIdPolicy = s.cfgDupIdPolicy := rfl
@[simp] theorem setOnBus_seqPhase (s : State) (f : Option Frame) : (setOnBus s f).seqPhase = s.seqPhase := rfl
@[simp] theorem setOnBus_seqBitIndex (s : State) (f : Option Frame) : (setOnBus s f).seqBitIndex = s.seqBitIndex := rfl
@[simp] theorem setOnBus_seqWinner (s : State) (f : Option Frame) : (setOnBus s f).seqWinner = s.seqWinner := rfl
@[simp] theorem setOnBus_seqWonAt (s : State) (f : Option Frame) : (setOnBus s f).seqWonAt = s.seqWonAt := rfl
@[simp] theorem setOnBus_seqAckSeen (s : State) (f : Option Frame) : (setOnBus s f).seqAckSeen = s.seqAckSeen := rfl
@[simp] theorem setOnBus_events (s : State) (f : Option Frame) : (setOnBus s f).events = s.events := rfl
@[simp] theorem setOnBus_result (s : State) (f : Option Frame) : (setOnBus s f).result = s.result := rfl
@[simp] theorem setOnBus_commands (s : State) (f : Option Frame) : (setOnBus s f).commands = s.commands := rfl
@[simp] theorem setOnBus_arrivals (s : State) (f : Option Frame) : (setOnBus s f).arrivals = s.arrivals := rfl
@[simp] theorem setOnBus_hostDirect (s : State) (f : Option Frame) : (setOnBus s f).hostDirect = s.hostDirect := rfl
@[simp] theorem setOnBus_freeCount (s : State) (f : Option Frame) : (setOnBus s f).freeCount = s.freeCount := rfl

@[simp] theorem setBusTick_nodes (s : State) (t : Nat) : (setBusTick s t).nodes = s.nodes := rfl
@[simp] theorem setBusTick_busConnected (s : State) (t : Nat) : (setBusTick s t).busConnected = s.busConnected := rfl
@[simp] theorem setBusTick_busOnBus (s : State) (t : Nat) : (setBusTick s t).busOnBus = s.busOnBus := rfl
@[simp] theorem setBusTick_busTick (s : State) (t : Nat) : (setBusTick s t).busTick = t := rfl
@[simp] theorem setBusTick_drvTick (s : State) (t : Nat) : (setBusTick s t).drvTick = s.drvTick := rfl
@[simp] theorem setBusTick_drvPauseReq (s : State) (t : Nat) : (setBusTick s t).drvPauseReq = s.drvPauseReq := rfl
@[simp] theorem setBusTick_drvStopReq (s : State) (t : Nat) : (setBusTick s t).drvStopReq = s.drvStopReq := rfl
@[simp] theorem setBusTick_drvSetupDone (s : State) (t : Nat) : (setBusTick s t).drvSetupDone = s.drvSetupDone := rfl
@[simp] theorem setBusTick_drvRunning (s : State) (t : Nat) : (setBusTick s t).drvRunning = s.drvRunning := rfl
@[simp] theorem setBusTick_cfgErrorLimit (s : State) (t : Nat) : (setBusTick s t).cfgErrorLimit = s.cfgErrorLimit := rfl
@[simp] theorem setBusTick_cfgDupIdPolicy (s : State) (t : Nat) : (setBusTick s t).cfgDupIdPolicy = s.cfgDupIdPolicy := rfl
@[simp] theorem setBusTick_seqPhase (s : State) (t : Nat) : (setBusTick s t).seqPhase = s.seqPhase := rfl
@[simp] theorem setBusTick_seqBitIndex (s : State) (t : Nat) : (setBusTick s t).seqBitIndex = s.seqBitIndex := rfl
@[simp] theorem setBusTick_seqWinner (s : State) (t : Nat) : (setBusTick s t).seqWinner = s.seqWinner := rfl
@[simp] theorem setBusTick_seqWonAt (s : State) (t : Nat) : (setBusTick s t).seqWonAt = s.seqWonAt := rfl
@[simp] theorem setBusTick_seqAckSeen (s : State) (t : Nat) : (setBusTick s t).seqAckSeen = s.seqAckSeen := rfl
@[simp] theorem setBusTick_events (s : State) (t : Nat) : (setBusTick s t).events = s.events := rfl
@[simp] theorem setBusTick_result (s : State) (t : Nat) : (setBusTick s t).result = s.result := rfl
@[simp] theorem setBusTick_commands (s : State) (t : Nat) : (setBusTick s t).commands = s.commands := rfl
@[simp] theorem setBusTick_arrivals (s : State) (t : Nat) : (setBusTick s t).arrivals = s.arrivals := rfl
@[simp] theorem setBusTick_hostDirect (s : State) (t : Nat) : (setBusTick s t).hostDirect = s.hostDirect := rfl
@[simp] theorem setBusTick_freeCount (s : State) (t : Nat) : (setBusTick s t).freeCount = s.freeCount := rfl

@[simp] theorem setDrvTick_nodes (s : State) (t : Nat) : (setDrvTick s t).nodes = s.nodes := rfl
@[simp] theorem setDrvTick_busConnected (s : State) (t : Nat) : (setDrvTick s t).busConnected = s.busConnected := rfl
@[simp] theorem setDrvTick_busOnBus (s : State) (t : Nat) : (setDrvTick s t).busOnBus = s.busOnBus := rfl
@[simp] theorem setDrvTick_busTick (s : State) (t : Nat) : (setDrvTick s t).busTick = s.busTick := rfl
@[simp] theorem setDrvTick_drvTick (s : State) (t : Nat) : (setDrvTick s t).drvTick = t := rfl
@[simp] theorem setDrvTick_drvPauseReq (s : State) (t : Nat) : (setDrvTick s t).drvPauseReq = s.drvPauseReq := rfl
@[simp] theorem setDrvTick_drvStopReq (s : State) (t : Nat) : (setDrvTick s t).drvStopReq = s.drvStopReq := rfl
@[simp] theorem setDrvTick_drvSetupDone (s : State) (t : Nat) : (setDrvTick s t).drvSetupDone = s.drvSetupDone := rfl
@[simp] theorem setDrvTick_drvRunning (s : State) (t : Nat) : (setDrvTick s t).drvRunning = s.drvRunning := rfl
@[simp] theorem setDrvTick_cfgErrorLimit (s : State) (t : Nat) : (setDrvTick s t).cfgErrorLimit = s.cfgErrorLimit := rfl
@[simp] theorem setDrvTick_cfgDupIdPolicy (s : State) (t : Nat) : (setDrvTick s t).cfgDupIdPolicy = s.cfgDupIdPolicy := rfl
@[simp] theorem setDrvTick_seqPhase (s : State) (t : Nat) : (setDrvTick s t).seqPhase = s.seqPhase := rfl
@[simp] theorem setDrvTick_seqBitIndex (s : State) (t : Nat) : (setDrvTick s t).seqBitIndex = s.seqBitIndex := rfl
@[simp] theorem setDrvTick_seqWinner (s : State) (t : Nat) : (setDrvTick s t).seqWinner = s.seqWinner := rfl
@[simp] theorem setDrvTick_seqWonAt (s : State) (t : Nat) : (setDrvTick s t).seqWonAt = s.seqWonAt := rfl
@[simp] theorem setDrvTick_seqAckSeen (s : State) (t : Nat) : (setDrvTick s t).seqAckSeen = s.seqAckSeen := rfl
@[simp] theorem setDrvTick_events (s : State) (t : Nat) : (setDrvTick s t).events = s.events := rfl
@[simp] theorem setDrvTick_result (s : State) (t : Nat) : (setDrvTick s t).result = s.result := rfl
@[simp] theorem setDrvTick_commands (s : State) (t : Nat) : (setDrvTick s t).commands = s.commands := rfl
@[simp] theorem setDrvTick_arrivals (s : State) (t : Nat) : (setDrvTick s t).arrivals = s.arrivals := rfl
@[simp] theorem setDrvTick_hostDirect (s : State) (t : Nat) : (setDrvTick s t).hostDirect = s.hostDirect := rfl
@[simp] theorem setDrvTick_freeCount (s : State) (t : Nat) : (setDrvTick s t).freeCount = s.freeCount := rfl

@[simp] theorem setRunning_nodes (s : State) (b : Bool) : (setRunning s b).nodes = s.nodes := rfl
@[simp] theorem setRunning_busConnected (s : State) (b : Bool) : (setRunning s b).busConnected = s.busConnected := rfl
@[simp] theorem setRunning_busOnBus (s : State) (b : Bool) : (setRunning s b).busOnBus = s.busOnBus := rfl
@[simp] theorem setRunning_busTick (s : State) (b : Bool) : (setRunning s b).busTick = s.busTick := rfl
@[simp] theorem setRunning_drvTick (s : State) (b : Bool) : (setRunning s b).drvTick = s.drvTick := rfl
@[simp] theorem setRunning_drvPauseReq (s : State) (b : Bool) : (setRunning s b).drvPauseReq = s.drvPauseReq := rfl
@[simp] theorem setRunning_drvStopReq (s : State) (b : Bool) : (setRunning s b).drvStopReq = s.drvStopReq := rfl
@[simp] theorem setRunning_drvSetupDone (s : State) (b : Bool) : (setRunning s b).drvSetupDone = s.drvSetupDone := rfl
@[simp] theorem setRunning_drvRunning (s : State) (b : Bool) : (setRunning s b).drvRunning = b := rfl
@[simp] theorem setRunning_cfgErrorLimit (s : State) (b : Bool) : (setRunning s b).cfgErrorLimit = s.cfgErrorLimit := rfl
@[simp] theorem setRunning_cfgDupIdPolicy (s : State) (b : Bool) : (setRunning s b).cfgDupIdPolicy = s.cfgDupIdPolicy := rfl
@[simp] theorem setRunning_seqPhase (s : State) (b : Bool) : (setRunning s b).seqPhase = s.seqPhase := rfl
@[simp] theorem setRunning_seqBitIndex (s : State) (b : Bool) : (setRunning s b).seqBitIndex = s.seqBitIndex := rfl
@[simp] theorem setRunning_seqWinner (s : State) (b : Bool) : (setRunning s b).seqWinner = s.seqWinner := rfl
@[simp] theorem setRunning_seqWonAt (s : State) (b : Bool) : (setRunning s b).seqWonAt = s.seqWonAt := rfl
@[simp] theorem setRunning_seqAckSeen (s : State) (b : Bool) : (setRunning s b).seqAckSeen = s.seqAckSeen := rfl
@[simp] theorem setRunning_events (s : State) (b : Bool) : (setRunning s b).events = s.events := rfl
@[simp] theorem setRunning_result (s : State) (b : Bool) : (setRunning s b).result = s.result := rfl
@[simp] theorem setRunning_commands (s : State) (b : Bool) : (setRunning s b).commands = s.commands := rfl
@[simp] theorem setRunning_arrivals (s : State) (b : Bool) : (setRunning s b).arrivals = s.arrivals := rfl
@[simp] theorem setRunning_hostDirect (s : State) (b : Bool) : (setRunning s b).hostDirect = s.hostDirect := rfl
@[simp] theorem setRunning_freeCount (s : State) (b : Bool) : (setRunning s b).freeCount = s.freeCount := rfl

@[simp] theorem setBitIndex_nodes (s : State) (i : Nat) : (setBitIndex s i).nodes = s.nodes := rfl
@[simp] theorem setBitIndex_busConnected (s : State) (i : Nat) : (setBitIndex s i).busConnected = s.busConnected := rfl
@[simp] theorem setBitIndex_busOnBus (s : State) (i : Nat) : (setBitIndex s i).busOnBus = s.busOnBus := rfl
@[simp] theorem setBitIndex_busTick (s : State) (i : Nat) : (setBitIndex s i).busTick = s.busTick := rfl
@[simp] theorem setBitIndex_drvTick (s : State) (i : Nat) : (setBitIndex s i).drvTick = s.drvTick := rfl
@[simp] theorem setBitIndex_drvPauseReq (s : State) (i : Nat) : (setBitIndex s i).drvPauseReq = s.drvPauseReq := rfl
@[simp] theorem setBitIndex_drvStopReq (s : State) (i : Nat) : (setBitIndex s i).drvStopReq = s.drvStopReq := rfl
@[simp] theorem setBitIndex_drvSetupDone (s : State) (i : Nat) : (setBitIndex s i).drvSetupDone = s.drvSetupDone := rfl
@[simp] theorem setBitIndex_drvRunning (s : State) (i : Nat) : (setBitIndex s i).drvRunning = s.drvRunning := rfl
@[simp] theorem setBitIndex_cfgErrorLimit (s : State) (i : Nat) : (setBitIndex s i).cfgErrorLimit = s.cfgErrorLimit := rfl
@[simp] theorem setBitIndex_cfgDupIdPolicy (s : State) (i : Nat) : (setBitIndex s i).cfgDupIdPolicy = s.cfgDupIdPolicy := rfl
@[simp] theorem setBitIndex_seqPhase (s : State) (i : Nat) : (setBitIndex s i).seqPhase = s.seqPhase := rfl
@[simp] theorem setBitIndex_seqBitIndex (s : State) (i : Nat) : (setBitIndex s i).seqBitIndex = i := rfl
@[simp] theorem setBitIndex_seqWinner (s : State) (i : Nat) : (setBitIndex s i).seqWinner = s.seqWinner := rfl
@[simp] theorem setBitIndex_seqWonAt (s : State) (i : Nat) : (setBitIndex s i).seqWonAt = s.seqWonAt := rfl
@[simp] theorem setBitIndex_seqAckSeen (s : State) (i : Nat) : (setBitIndex s i).seqAckSeen = s.seqAckSeen := rfl
@[simp] theorem setBitIndex_events (s : State) (i : Nat) : (setBitIndex s i).events = s.events := rfl
@[simp] theorem setBitIndex_result (s : State) (i : Nat) : (setBitIndex s i).result = s.result := rfl
@[simp] theorem setBitIndex_commands (s : State) (i : Nat) : (setBitIndex s i).commands = s.commands := rfl
@[simp] theorem setBitIndex_arrivals (s : State) (i : Nat) : (setBitIndex s i).arrivals = s.arrivals := rfl
@[simp] theorem setBitIndex_hostDirect (s : State) (i : Nat) : (setBitIndex s i).hostDirect = s.hostDirect := rfl
@[simp] theorem setBitIndex_freeCount (s : State) (i : Nat) : (setBitIndex s i).freeCount = s.freeCount := rfl

@[simp] theorem setWinner_nodes (s : State) (w : Option Nat) (i : Nat) : (setWinner s w i).nodes = s.nodes := rfl
@[simp] theorem setWinner_busConnected (s : State) (w : Option Nat) (i : Nat) : (setWinner s w i).busConnected = s.busConnected := rfl
@[simp] theorem setWinner_busOnBus (s : State) (w : Option Nat) (i : Nat) : (setWinner s w i).busOnBus = s.busOnBus := rfl
@[simp] theorem setWinner_busTick (s : State) (w : Option Nat) (i : Nat) : (setWinner s w i).busTick = s.busTick := rfl
@[simp] theorem setWinner_drvTick (s : State) (w : Option Nat) (i : Nat) : (setWinner s w i).drvTick = s.drvTick := rfl
@[simp] theorem setWinner_drvPauseReq (s : State) (w : Option Nat) (i : Nat) : (setWinner s w i).drvPauseReq = s.drvPauseReq := rfl
@[simp] theorem setWinner_drvStopReq (s : State) (w : Option Nat) (i : Nat) : (setWinner s w i).drvStopReq = s.drvStopReq := rfl
@[simp] theorem setWinner_drvSetupDone (s : State) (w : Option Nat) (i : Nat) : (setWinner s w i).drvSetupDone = s.drvSetupDone := rfl
@[simp] theorem setWinner_drvRunning (s : State) (w : Option Nat) (i : Nat) : (setWinner s w i).drvRunning = s.drvRunning := rfl
@[simp] theorem setWinner_cfgErrorLimit (s : State) (w : Option Nat) (i : Nat) : (setWinner s w i).cfgErrorLimit = s.cfgErrorLimit := rfl
@[simp] theorem setWinner_cfgDupIdPolicy (s : State) (w : Option Nat) (i : Nat) : (setWinner s w i).cfgDupIdPolicy = s.cfgDupIdPolicy := rfl
@[simp] theorem setWinner_seqPhase (s : State) (w : Option Nat) (i : Nat) : (setWinner s w i).seqPhase = s.seqPhase := rfl
@[simp] theorem setWinner_seqBitIndex (s : State) (w : Option Nat) (i : Nat) : (setWinner s w i).seqBitIndex = s.seqBitIndex := rfl
@[simp] theorem setWinner_seqWinner (s : State) (w : Option Nat) (i : Nat) : (setWinner s w i).seqWinner = w := rfl
@[simp] theorem setWinner_seqWonAt (s : State) (w : Option Nat) (i : Nat) : (setWinner s w i).seqWonAt = i := rfl
@[simp] theorem setWinner_seqAckSeen (s : State) (w : Option Nat) (i : Nat) : (setWinner s w i).seqAckSeen = s.seqAckSeen := rfl
@[simp] theorem setWinner_events (s : State) (w : Option Nat) (i : Nat) : (setWinner s w i).events = s.events := rfl
@[simp] theorem setWinner_result (s : State) (w : Option Nat) (i : Nat) : (setWinner s w i).result = s.result := rfl
@[simp] theorem setWinner_commands (s : State) (w : Option Nat) (i : Nat) : (setWinner s w i).commands = s.commands := rfl
@[simp] theorem setWinner_arrivals (s : State) (w : Option Nat) (i : Nat) : (setWinner s w i).arrivals = s.arrivals := rfl
@[simp] theorem setWinner_hostDirect (s : State) (w : Option Nat) (i : Nat) : (setWinner s w i).hostDirect = s.hostDirect := rfl
@[simp] theorem setWinner_freeCount (s : State) (w : Option Nat) (i : Nat) : (setWinner s w i).freeCount = s.freeCount := rfl

@[simp] theorem setAckSeen_nodes (s : State) (b : Bool) : (setAckSeen s b).nodes = s.nodes := rfl
@[simp] theorem setAckSeen_busConnected (s : State) (b : Bool) : (setAckSeen s b).busConnected = s.busConnected := rfl
@[simp] theorem setAckSeen_busOnBus (s : State) (b : Bool) : (setAckSeen s b).busOnBus = s.busOnBus := rfl
@[simp] theorem setAckSeen_busTick (s : State) (b : Bool) : (setAckSeen s b).busTick = s.busTick := rfl
@[simp] theorem setAckSeen_drvTick (s : State) (b : Bool) : (setAckSeen s b).drvTick = s.drvTick := rfl
@[simp] theorem setAckSeen_drvPauseReq (s : State) (b : Bool) : (setAckSeen s b).drvPauseReq = s.drvPauseReq := rfl
@[simp] theorem setAckSeen_drvStopReq (s : State) (b : Bool) : (setAckSeen s b).drvStopReq = s.drvStopReq := rfl
@[simp] theorem setAckSeen_drvSetupDone (s : State) (b : Bool) : (setAckSeen s b).drvSetupDone = s.drvSetupDone := rfl
@[simp] theorem setAckSeen_drvRunning (s : State) (b : Bool) : (setAckSeen s b).drvRunning = s.drvRunning := rfl
@[simp] theorem setAckSeen_cfgErrorLimit (s : State) (b : Bool) : (setAckSeen s b).cfgErrorLimit = s.cfgErrorLimit := rfl
@[simp] theorem setAckSeen_cfgDupIdPolicy (s : State) (b : Bool) : (setAckSeen s b).cfgDupIdPolicy = s.cfgDupIdPolicy := rfl
@[simp] theorem setAckSeen_seqPhase (s : State) (b : Bool) : (setAckSeen s b).seqPhase = s.seqPhase := rfl
@[simp] theorem setAckSeen_seqBitIndex (s : State) (b : Bool) : (setAckSeen s b).seqBitIndex = s.seqBitIndex := rfl
@[simp] theorem setAckSeen_seqWinner (s : State) (b : Bool) : (setAckSeen s b).seqWinner = s.seqWinner := rfl
@[simp] theorem setAckSeen_seqWonAt (s : State) (b : Bool) : (setAckSeen s b).seqWonAt = s.seqWonAt := rfl
@[simp] theorem setAckSeen_seqAckSeen (s : State) (b : Bool) : (setAckSeen s b).seqAckSeen = b := rfl
@[simp] theorem setAckSeen_events (s : State) (b : Bool) : (setAckSeen s b).events = s.events := rfl
@[simp] theorem setAckSeen_result (s : State) (b : Bool) : (setAckSeen s b).result = s.result := rfl
@[simp] theorem setAckSeen_commands (s : State) (b : Bool) : (setAckSeen s b).commands = s.commands := rfl
@[simp] theorem setAckSeen_arrivals (s : State) (b : Bool) : (setAckSeen s b).arrivals = s.arrivals := rfl
@[simp] theorem setAckSeen_hostDirect (s : State) (b : Bool) : (setAckSeen s b).hostDirect = s.hostDirect := rfl
@[simp] theorem setAckSeen_freeCount (s : State) (b : Bool) : (setAckSeen s b).freeCount = s.freeCount := rfl

@[simp] theorem setResult_nodes (s : State) (r : Result) : (setResult s r).nodes = s.nodes := rfl
@[simp] theorem setResult_busConnected (s : State) (r : Result) : (setResult s r).busConnected = s.busConnected := rfl
@[simp] theorem setResult_busOnBus (s : State) (r : Result) : (setResult s r).busOnBus = s.busOnBus := rfl
@[simp] theorem setResult_busTick (s : State) (r : Result) : (setResult s r).busTick = s.busTick := rfl
@[simp] theorem setResult_drvTick (s : State) (r : Result) : (setResult s r).drvTick = s.drvTick := rfl
@[simp] theorem setResult_drvPauseReq (s : State) (r : Result) : (setResult s r).drvPauseReq = s.drvPauseReq := rfl
@[simp] theorem setResult_drvStopReq (s : State) (r : Result) : (setResult s r).drvStopReq = s.drvStopReq := rfl
@[simp] theorem setResult_drvSetupDone (s : State) (r : Result) : (setResult s r).drvSetupDone = s.drvSetupDone := rfl
@[simp] theorem setResult_drvRunning (s : State) (r : Result) : (setResult s r).drvRunning = s.drvRunning := rfl
@[simp] theorem setResult_cfgErrorLimit (s : State) (r : Result) : (setResult s r).cfgErrorLimit = s.cfgErrorLimit := rfl
@[simp] theorem setResult_cfgDupIdPolicy (s : State) (r : Result) : (setResult s r).cfgDupIdPolicy = s.cfgDupIdPolicy := rfl
@[simp] theorem setResult_seqPhase (s : State) (r : Result) : (setResult s r).seqPhase = s.seqPhase := rfl
@[simp] theorem setResult_seqBitIndex (s : State) (r : Result) : (setResult s r).seqBitIndex = s.seqBitIndex := rfl
@[simp] theorem setResult_seqWinner (s : State) (r : Result) : (setResult s r).seqWinner = s.seqWinner := rfl
@[simp] theorem setResult_seqWonAt (s : State) (r : Result) : (setResult s r).seqWonAt = s.seqWonAt := rfl
@[simp] theorem setResult_seqAckSeen (s : State) (r : Result) : (setResult s r).seqAckSeen = s.seqAckSeen := rfl
@[simp] theorem setResult_events (s : State) (r : Result) : (setResult s r).events = s.events := rfl
@[simp] theorem setResult_result (s : State) (r : Result) : (setResult s r).result = r := rfl
@[simp] theorem setResult_commands (s : State) (r : Result) : (setResult s r).commands = s.commands := rfl
@[simp] theorem setResult_arrivals (s : State) (r : Result) : (setResult s r).arrivals = s.arrivals := rfl
@[simp] theorem setResult_hostDirect (s : State) (r : Result) : (setResult s r).hostDirect = s.hostDirect := rfl
@[simp] theorem setResult_freeCount (s : State) (r : Result) : (setResult s r).freeCount = s.freeCount := rfl

@[simp] theorem updateNode_busConnected (s : State) (k : Nat) (f : Node → Node) : (updateNode s k f).busConnected = s.busConnected := by unfold updateNode; split <;> rfl
@[simp] theorem updateNode_busOnBus (s : State) (k : Nat) (f : Node → Node) : (updateNode s k f).busOnBus = s.busOnBus := by unfold updateNode; split <;> rfl
@[simp] theorem updateNode_busTick (s : State) (k : Nat) (f : Node → Node) : (updateNode s k f).busTick = s.busTick := by unfold updateNode; split <;> rfl
@[simp] theorem updateNode_drvTick (s : State) (k : Nat) (f : Node → Node) : (updateNode s k f).drvTick = s.drvTick := by unfold updateNode; split <;> rfl
@[simp] theorem updateNode_drvPauseReq (s : State) (k : Nat) (f : Node → Node) : (updateNode s k f).drvPauseReq = s.drvPauseReq := by unfold updateNode; split <;> rfl
@[simp] theorem updateNode_drvStopReq (s : State) (k : Nat) (f : Node → Node) : (updateNode s k f).drvStopReq = s.drvStopReq := by unfold updateNode; split <;> rfl
@[simp] theorem updateNode_drvSetupDone (s : State) (k : Nat) (f : Node → Node) : (updateNode s k f).drvSetupDone = s.drvSetupDone := by unfold updateNode; split <;> rfl
@[simp] theorem updateNode_drvRunning (s : State) (k : Nat) (f : Node → Node) : (updateNode s k f).drvRunning = s.drvRunning := by unfold updateNode; split <;> rfl
@[simp] theorem updateNode_cfgErrorLimit (s : State) (k : Nat) (f : Node → Node) : (updateNode s k f).cfgErrorLimit = s.cfgErrorLimit := by unfold updateNode; split <;> rfl
@[simp] theorem updateNode_cfgDupIdPolicy (s : State) (k : Nat) (f : Node → Node) : (updateNode s k f).cfgDupIdPolicy = s.cfgDupIdPolicy := by unfold updateNode; split <;> rfl
@[simp] theorem updateNode_seqPhase (s : State) (k : Nat) (f : Node → Node) : (updateNode s k f).seqPhase = s.seqPhase := by unfold updateNode; split <;> rfl
@[simp] theorem updateNode_seqBitIndex (s : State) (k : Nat) (f : Node → Node) : (updateNode s k f).seqBitIndex = s.seqBitIndex := by unfold updateNode; split <;> rfl
@[simp] theorem updateNode_seqWinner (s : State) (k : Nat) (f : Node → Node) : (updateNode s k f).seqWinner = s.seqWinner := by unfold updateNode; split <;> rfl
@[simp] theorem updateNode_seqWonAt (s : State) (k : Nat) (f : Node → Node) : (updateNode s k f).seqWonAt = s.seqWonAt := by unfold updateNode; split <;> rfl
@[simp] theorem updateNode_seqAckSeen (s : State) (k : Nat) (f : Node → Node) : (updateNode s k f).seqAckSeen = s.seqAckSeen := by unfold updateNode; split <;> rfl
@[simp] theorem updateNode_events (s : State) (k : Nat) (f : Node → Node) : (updateNode s k f).events = s.events := by unfold updateNode; split <;> rfl
@[simp] theorem updateNode_result (s : State) (k : Nat) (f : Node → Node) : (updateNode s k f).result = s.result := by unfold updateNode; split <;> rfl
@[simp] theorem updateNode_commands (s : State) (k : Nat) (f : Node → Node) : (updateNode s k f).commands = s.commands := by unfold updateNode; split <;> rfl
@[simp] theorem updateNode_arrivals (s : State) (k : Nat) (f : Node → Node) : (updateNode s k f).arrivals = s.arrivals := by unfold updateNode; split <;> rfl
@[simp] theorem updateNode_hostDirect (s : State) (k : Nat) (f : Node → Node) : (updateNode s k f).hostDirect = s.hostDirect := by unfold updateNode; split <;> rfl
@[simp] theorem updateNode_freeCount (s : State) (k : Nat) (f : Node → Node) : (updateNode s k f).freeCount = s.freeCount := by unfold updateNode; split <;> rfl

@[simp] theorem emitNode_nodes (s : State) (k : Nat) (mk : Node → EventKind) : (emitNode s k mk).nodes = s.nodes := by unfold emitNode; split <;> rfl
@[simp] theorem emitNode_busConnected (s : State) (k : Nat) (mk : Node → EventKind) : (emitNode s k mk).busConnected = s.busConnected := by unfold emitNode; split <;> rfl
@[simp] theorem emitNode_busOnBus (s : State) (k : Nat) (mk : Node → EventKind) : (emitNode s k mk).busOnBus = s.busOnBus := by unfold emitNode; split <;> rfl
@[simp] theorem emitNode_busTick (s : State) (k : Nat) (mk : Node → EventKind) : (emitNode s k mk).busTick = s.busTick := by unfold emitNode; split <;> rfl
@[simp] theorem emitNode_drvTick (s : State) (k : Nat) (mk : Node → EventKind) : (emitNode s k mk).drvTick = s.drvTick := by unfold emitNode; split <;> rfl
@[simp] theorem emitNode_drvPauseReq (s : State) (k : Nat) (mk : Node → EventKind) : (emitNode s k mk).drvPauseReq = s.drvPauseReq := by unfold emitNode; split <;> rfl
@[simp] theorem emitNode_drvStopReq (s : State) (k : Nat) (mk : Node → EventKind) : (emitNode s k mk).drvStopReq = s.drvStopReq := by unfold emitNode; split <;> rfl
@[simp] theorem emitNode_drvSetupDone (s : State) (k : Nat) (mk : Node → EventKind) : (emitNode s k mk).drvSetupDone = s.drvSetupDone := by unfold emitNode; split <;> rfl
@[simp] theorem emitNode_drvRunning (s : State) (k : Nat) (mk : Node → EventKind) : (emitNode s k mk).drvRunning = s.drvRunning := by unfold emitNode; split <;> rfl
@[simp] theorem emitNode_cfgErrorLimit (s : State) (k : Nat) (mk : Node → EventKind) : (emitNode s k mk).cfgErrorLimit = s.cfgErrorLimit := by unfold emitNode; split <;> rfl
@[simp] theorem emitNode_cfgDupIdPolicy (s : State) (k : Nat) (mk : Node → EventKind) : (emitNode s k mk).cfgDupIdPolicy = s.cfgDupIdPolicy := by unfold emitNode; split <;> rfl
@[simp] theorem emitNode_seqPhase (s : State) (k : Nat) (mk : Node → EventKind) : (emitNode s k mk).seqPhase = s.seqPhase := by unfold emitNode; split <;> rfl
@[simp] theorem emitNode_seqBitIndex (s : State) (k : Nat) (mk : Node → EventKind) : (emitNode s k mk).seqBitIndex = s.seqBitIndex := by unfold emitNode; split <;> rfl
@[simp] theorem emitNode_seqWinner (s : State) (k : Nat) (mk : Node → EventKind) : (emitNode s k mk).seqWinner = s.seqWinner := by unfold emitNode; split <;> rfl
@[simp] theorem emitNode_seqWonAt (s : State) (k : Nat) (mk : Node → EventKind) : (emitNode s k mk).seqWonAt = s.seqWonAt := by unfold emitNode; split <;> rfl
@[simp] theorem emitNode_seqAckSeen (s : State) (k : Nat) (mk : Node → EventKind) : (emitNode s k mk).seqAckSeen = s.seqAckSeen := by unfold emitNode; split <;> rfl
@[simp] theorem emitNode_result (s : State) (k : Nat) (mk : Node → EventKind) : (emitNode s k mk).result = s.result := by unfold emitNode; split <;> rfl
@[simp] theorem emitNode_commands (s : State) (k : Nat) (mk : Node → EventKind) : (emitNode s k mk).commands = s.commands := by unfold emitNode; split <;> rfl
@[simp] theorem emitNode_arrivals (s : State) (k : Nat) (mk : Node → EventKind) : (emitNode s k mk).arrivals = s.arrivals := by unfold emitNode; split <;> rfl
@[simp] theorem emitNode_hostDirect (s : State) (k : Nat) (mk : Node → EventKind) : (emitNode s k mk).hostDirect = s.hostDirect := by unfold emitNode; split <;> rfl
@[simp] theorem emitNode_freeCount (s : State) (k : Nat) (mk : Node → EventKind) : (emitNode s k mk).freeCount = s.freeCount := by unfold emitNode; split <;> rfl

@[simp] theorem enterStatus_busConnected (st : Status) (s : State) (k : Nat) : (enterStatus st s k).busConnected = s.busConnected := by
  simp [enterStatus]
@[simp] theorem enterStatus_busOnBus (st : Status) (s : State) (k : Nat) : (enterStatus st s k).busOnBus = s.busOnBus := by
  simp [enterStatus]
@[simp] theorem enterStatus_busTick (st : Status) (s : State) (k : Nat) : (enterStatus st s k).busTick = s.busTick := by
  simp [enterStatus]
@[simp] theorem enterStatus_drvTick (st : Status) (s : State) (k : Nat) : (enterStatus st s k).drvTick = s.drvTick := by
  simp [enterStatus]
@[simp] theorem enterStatus_drvPauseReq (st : Status) (s : State) (k : Nat) : (enterStatus st s k).drvPauseReq = s.drvPauseReq := by
  simp [enterStatus]
@[simp] theorem enterStatus_drvStopReq (st : Status) (s : State) (k : Nat) : (enterStatus st s k).drvStopReq = s.drvStopReq := by
  simp [enterStatus]
@[simp] theorem enterStatus_drvSetupDone (st : Status) (s : State) (k : Nat) : (enterStatus st s k).drvSetupDone = s.drvSetupDone := by
  simp [enterStatus]
@[simp] theorem enterStatus_drvRunning (st : Status) (s : State) (k : Nat) : (enterStatus st s k).drvRunning = s.drvRunning := by
  simp [enterStatus]
@[simp] theorem enterStatus_cfgErrorLimit (st : Status) (s : State) (k : Nat) : (enterStatus st s k).cfgErrorLimit = s.cfgErrorLimit := by
  simp [enterStatus]
@[simp] theorem enterStatus_cfgDupIdPolicy (st : Status) (s : State) (k : Nat) : (enterStatus st s k).cfgDupIdPolicy = s.cfgDupIdPolicy := by
  simp [enterStatus]
@[simp] theorem enterStatus_seqPhase (st : Status) (s : State) (k : Nat) : (enterStatus st s k).seqPhase = s.seqPhase := by
  simp [enterStatus]
@[simp] theorem enterStatus_seqBitIndex (st : Status) (s : State) (k : Nat) : (enterStatus st s k).seqBitIndex = s.seqBitIndex := by
  simp [enterStatus]
@[simp] theorem enterStatus_seqWinner (st : Status) (s : State) (k : Nat) : (enterStatus st s k).seqWinner = s.seqWinner := by
  simp [enterStatus]
@[simp] theorem enterStatus_seqWonAt (st : Status) (s : State) (k : Nat) : (enterStatus st s k).seqWonAt = s.seqWonAt := by
  simp [enterStatus]
@[simp] theorem enterStatus_seqAckSeen (st : Status) (s : State) (k : Nat) : (enterStatus st s k).seqAckSeen = s.seqAckSeen := by
  simp [enterStatus]
@[simp] theorem enterStatus_result (st : Status) (s : State) (k : Nat) : (enterStatus st s k).result = s.result := by
  simp [enterStatus]
@[simp] theorem enterStatus_commands (st : Status) (s : State) (k : Nat) : (enterStatus st s k).commands = s.commands := by
  simp [enterStatus]
@[simp] theorem enterStatus_arrivals (st : Status) (s : State) (k : Nat) : (enterStatus st s k).arrivals = s.arrivals := by
  simp [enterStatus]
@[simp] theorem enterStatus_hostDirect (st : Status) (s : State) (k : Nat) : (enterStatus st s k).hostDirect = s.hostDirect := by
  simp [enterStatus]
@[simp] theorem enterStatus_freeCount (st : Status) (s : State) (k : Nat) : (enterStatus st s k).freeCount = s.freeCount := by
  simp [enterStatus]

end Sys2Proof.Machine
end

