-- ==== Sys2Proof/Laws/Ops.lean ====
section
/-!
SUPPORT. What the shared operations do, said once each: reading a node record after a write, the outcome combinator, the
operand forms, the operations on nodes, taking an error, and the loops over slots.
-/

namespace Sys2Proof.Machine

section Outcomes

variable {o : Host.Outcome State Fault Refusal} {f : State → Host.Outcome State Fault Refusal} {t : State}

@[simp] theorem andThen_next (s : State) : andThen (.next s) f = f s := rfl

@[simp] theorem andThen_refused (r : Refusal) : andThen (.refused r) f = .refused r := rfl

/-- A composed operation answers next exactly if both parts do. -/
theorem andThen_eq_next_iff : andThen o f = .next t ↔ ∃ s, o = .next s ∧ f s = .next t := by
  cases o <;> simp [andThen]

/-- A composed operation refuses exactly if one of its parts does. -/
theorem andThen_eq_refused_iff {r : Refusal} :
    andThen o f = .refused r ↔ o = .refused r ∨ ∃ s, o = .next s ∧ f s = .refused r := by
  cases o <;> simp [andThen]

/-- Nothing in this machine faults. -/
theorem fault_elim (r : Fault) : False := nomatch r

end Outcomes

section Nodes

variable {s : State} {k j : Nat} {n : Node}

theorem nodeAt_eq_some_iff : nodeAt s k = some n ↔ s.nodes[k]? = some (some n) := by
  unfold nodeAt
  cases s.nodes[k]? <;> simp

/-- A slot that holds a node is a slot. -/
theorem lt_of_nodeAt (h : nodeAt s k = some n) : k < s.nodes.length := by
  rw [nodeAt_eq_some_iff] at h
  exact (List.getElem?_eq_some_iff.mp h).1

/-- Two states with the same slots have the same nodes. -/
theorem nodeAt_congr {s t : State} (h : s.nodes = t.nodes) (k : Nat) : nodeAt s k = nodeAt t k := by
  unfold nodeAt
  rw [h]

@[simp] theorem nodeAt_emit (e : EventKind) : nodeAt (emit s e) k = nodeAt s k := rfl

@[simp] theorem nodeAt_setPhase (p : Phase) : nodeAt (setPhase s p) k = nodeAt s k := rfl

@[simp] theorem nodeAt_setResult (r : Result) : nodeAt (setResult s r) k = nodeAt s k := rfl

@[simp] theorem nodeAt_emitNode (mk : Node → EventKind) : nodeAt (emitNode s j mk) k = nodeAt s k :=
  nodeAt_congr (emitNode_nodes s j mk) k

@[simp] theorem nodeAt_setConnected (ks : List Nat) : nodeAt (setConnected s ks) k = nodeAt s k := rfl

@[simp] theorem nodeAt_setOnBus (f : Option Frame) : nodeAt (setOnBus s f) k = nodeAt s k := rfl

@[simp] theorem nodeAt_setBusTick (t : Nat) : nodeAt (setBusTick s t) k = nodeAt s k := rfl

@[simp] theorem nodeAt_setDrvTick (t : Nat) : nodeAt (setDrvTick s t) k = nodeAt s k := rfl

@[simp] theorem nodeAt_setRunning (b : Bool) : nodeAt (setRunning s b) k = nodeAt s k := rfl

@[simp] theorem nodeAt_setBitIndex (i : Nat) : nodeAt (setBitIndex s i) k = nodeAt s k := rfl

@[simp] theorem nodeAt_setWinner (w : Option Nat) (i : Nat) : nodeAt (setWinner s w i) k = nodeAt s k := rfl

@[simp] theorem nodeAt_setAckSeen (b : Bool) : nodeAt (setAckSeen s b) k = nodeAt s k := rfl

theorem nodeAt_putNode_self (h : k < s.nodes.length) : nodeAt (putNode s k n) k = some n := by
  simp [nodeAt, h]

theorem nodeAt_putNode_ne (h : j ≠ k) : nodeAt (putNode s k n) j = nodeAt s j := by
  simp [nodeAt, List.getElem?_set_ne (Ne.symm h)]

/-- After reset no slot holds a node (R50). -/
@[simp] theorem nodeAt_resetOf (m : Nat) : nodeAt (State.resetOf m) k = none := by
  unfold nodeAt State.resetOf
  rw [List.getElem?_replicate]
  split <;> rfl

/-- Reading a node record after a change: slot k's record through `f`, every other slot as before. -/
theorem nodeAt_updateNode (f : Node → Node) :
    nodeAt (updateNode s k f) j = if j = k then (nodeAt s k).map f else nodeAt s j := by
  unfold updateNode
  cases h : nodeAt s k with
  | none =>
    by_cases hj : j = k
    · subst hj
      simp [h]
    · simp [hj]
  | some n =>
    by_cases hj : j = k
    · subst hj
      simp [nodeAt_putNode_self (lt_of_nodeAt h)]
    · simp [hj, nodeAt_putNode_ne hj]

@[simp] theorem nodeAt_updateNode_self (f : Node → Node) : nodeAt (updateNode s k f) k = (nodeAt s k).map f := by
  simp [nodeAt_updateNode]

theorem nodeAt_updateNode_ne (f : Node → Node) (h : j ≠ k) : nodeAt (updateNode s k f) j = nodeAt s j := by
  simp [nodeAt_updateNode, h]

@[simp] theorem updateNode_nodes_length (f : Node → Node) : (updateNode s k f).nodes.length = s.nodes.length := by
  unfold updateNode
  split <;> simp

/-- What is true of the node of every slot below the slot count is true of every node. -/
theorem nodeAt_forall {P : Nat → Node → Prop} (h : ∀ k < s.nodes.length, ∀ n ∈ nodeAt s k, P k n) :
    ∀ k n, nodeAt s k = some n → P k n :=
  fun k n hk => h k (lt_of_nodeAt hk) n hk

/-- The operand form: a node operand answers what the body answers on the node, or is refused. -/
theorem withNode_eq_next_iff {f : Node → Host.Outcome State Fault Refusal} {t : State} :
    withNode s k f = .next t ↔ ∃ n, nodeAt s k = some n ∧ f n = .next t := by
  unfold withNode
  cases nodeAt s k <;> simp

theorem withNode_of_node {f : Node → Host.Outcome State Fault Refusal} (h : nodeAt s k = some n) :
    withNode s k f = f n := by
  simp [withNode, h]

theorem withNode_of_none {f : Node → Host.Outcome State Fault Refusal} (h : nodeAt s k = none) :
    withNode s k f = .refused .noNodeInSlot := by
  simp [withNode, h]

/-- Emitting about a node that exists appends exactly one event. -/
theorem emitNode_of_node (mk : Node → EventKind) (h : nodeAt s k = some n) : emitNode s k mk = emit s (mk n) := by
  simp [emitNode, h]

theorem emitNode_events (mk : Node → EventKind) :
    (emitNode s k mk).events = s.events ++ ((nodeAt s k).map fun n => ⟨s.busTick, mk n⟩).toList := by
  unfold emitNode
  cases nodeAt s k <;> simp

end Nodes

section NodeEffects

variable {s : State} {k j : Nat} {n : Node} {st : Status}

/-- A status transition: the status of node k, nothing else of any node (R162 to R165). -/
theorem nodeAt_enterStatus :
    nodeAt (enterStatus st s k) j = if j = k then (nodeAt s k).map ({ · with status := st }) else nodeAt s j := by
  simp [enterStatus, nodeAt_updateNode]

/-- A status transition of a node emits one `StatusChanged`. -/
theorem enterStatus_events :
    (enterStatus st s k).events = s.events ++ ((nodeAt s k).map fun n => ⟨s.busTick, .statusChanged n.id st⟩).toList := by
  unfold enterStatus
  rw [emitNode_events]
  cases h : nodeAt s k with
  | none => simp [updateNode, h]
  | some n => simp [updateNode, h, nodeAt_putNode_self (lt_of_nodeAt h)]

@[simp] theorem enterStatus_nodes_length : (enterStatus st s k).nodes.length = s.nodes.length := by
  simp [enterStatus]

@[simp] theorem popNext_id : (popNext n).id = n.id := by
  unfold popNext
  split <;> rfl

@[simp] theorem popNext_listeners : (popNext n).listeners = n.listeners := by
  unfold popNext
  split <;> rfl

@[simp] theorem popNext_status : (popNext n).status = n.status := by
  unfold popNext
  split <;> rfl

@[simp] theorem popNext_transmitErrors : (popNext n).transmitErrors = n.transmitErrors := by
  unfold popNext
  split <;> rfl

@[simp] theorem popNext_receiveErrors : (popNext n).receiveErrors = n.receiveErrors := by
  unfold popNext
  split <;> rfl

/-- Popping the head leaves the frames behind it, in their order (R167, R73). -/
theorem undelivered_popNext : undelivered (popNext n) = n.pending := by
  unfold undelivered popNext
  split <;> simp_all

/-- A popped node has a head frame unless it has no frame at all (R32). -/
theorem popNext_queue (h : (popNext n).next = none) : (popNext n).pending = [] := by
  unfold popNext at h ⊢
  split at h <;> simp_all

/-- `NODE_INIT` answers next exactly on a slot that exists and is unoccupied and a node that is not its own listener. -/
theorem nodeInit_eq_next_iff {id : Nat} {listeners : List Nat} {frames : List Frame} {t : State} :
    nodeInit k id listeners frames s = .next t ↔
      k < s.nodes.length ∧ nodeAt s k = none ∧ id ∉ listeners ∧ t = putNode s k (freshNode id listeners frames) := by
  unfold nodeInit
  by_cases h1 : s.nodes.length ≤ k
  · simp [h1]
  · by_cases h2 : (nodeAt s k).isSome = true
    · simp only [h1, h2, if_false, if_true]
      simp [Option.ne_none_iff_isSome.mpr h2]
    · by_cases h3 : id ∈ listeners
      · simp [h1, h2, h3]
      · rw [if_neg h1, if_neg h2, if_neg (by simpa using h3)]
        have h2' : nodeAt s k = none := by simpa using h2
        constructor
        · intro h
          exact ⟨by omega, h2', h3, by simpa using h.symm⟩
        · rintro ⟨-, -, -, rfl⟩
          rfl

/-- `TRANSMIT` answers next exactly on a Sending node with a head frame, and then only writes `bus.onBus` (R166). -/
theorem transmit_eq_next_iff {t : State} :
    transmit k s = .next t ↔
      ∃ n f, nodeAt s k = some n ∧ n.status = .sending ∧ n.next = some f ∧ t = setOnBus s (some f) := by
  unfold transmit
  rw [withNode_eq_next_iff]
  constructor
  · rintro ⟨n, hn, h⟩
    split at h
    · rename_i hs hf
      exact ⟨n, _, hn, hs, hf, by simpa using h.symm⟩
    · simp at h
  · rintro ⟨n, f, hn, hs, hf, rfl⟩
    exact ⟨n, hn, by simp [hs, hf]⟩

/-- What taking an error changes in the node records (R273). -/
theorem nodeAt_takeError_frameCorruption :
    nodeAt (takeError (.frameCorruption k) s) j =
      if j = k then (nodeAt s k).map fun n => { n with receiveErrors := n.receiveErrors + 1 } else nodeAt s j := by
  simp [takeError, nodeAt_updateNode]

theorem nodeAt_takeError_acknowledgmentFailure :
    nodeAt (takeError (.acknowledgmentFailure k) s) j =
      if j = k then
        (nodeAt s k).map fun n => { n with transmitErrors := n.transmitErrors + 1, next := n.next.map repairFrame }
      else nodeAt s j := by
  simp [takeError, nodeAt_updateNode]

theorem nodeAt_takeError_busOff :
    nodeAt (takeError (.busOff k) s) j =
      if j = k then (nodeAt s k).map ({ · with status := .evicted }) else nodeAt s j := by
  rw [← nodeAt_updateNode]
  simp only [takeError, disconnect, nodeAt_emitNode, nodeAt_setConnected]

@[simp] theorem takeError_busOff_connected :
    (takeError (.busOff k) s).busConnected = s.busConnected.filter (· ≠ k) := by
  simp [takeError, disconnect]

end NodeEffects

section Loops

/-- A loop over slots keeps what each of its steps keeps. -/
theorem forSlots_field {α : Type} {f : State → Nat → State} (g : State → α) (h : ∀ s k, g (f s k) = g s)
    (ks : List Nat) (s : State) : g (forSlots f ks s) = g s := by
  unfold forSlots
  induction ks generalizing s with
  | nil => rfl
  | cons k ks ih => rw [List.foldl_cons, ih, h]

/-- An invariant of the step of a loop is one of the loop. -/
theorem forSlots_keeps {f : State → Nat → State} {P : State → Prop} (h : ∀ s k, P s → P (f s k)) (ks : List Nat)
    {s : State} (hs : P s) : P (forSlots f ks s) := by
  unfold forSlots
  induction ks generalizing s with
  | nil => exact hs
  | cons k ks ih => exact ih (h s k hs)

@[simp] theorem forSlots_nil (f : State → Nat → State) (s : State) : forSlots f [] s = s := rfl

@[simp] theorem forSlots_cons (f : State → Nat → State) (k : Nat) (ks : List Nat) (s : State) :
    forSlots f (k :: ks) s = forSlots f ks (f s k) := rfl

/-- The nodes after a loop of status transitions: the listed slots carry the new status, the others are as before. -/
theorem nodeAt_forSlots_enterStatus (st : Status) (ks : List Nat) (s : State) (j : Nat) :
    nodeAt (forSlots (enterStatus st) ks s) j =
      if j ∈ ks then (nodeAt s j).map ({ · with status := st }) else nodeAt s j := by
  induction ks generalizing s with
  | nil => simp
  | cons k ks ih =>
    rw [forSlots_cons, ih]
    by_cases hk : j = k
    · subst hk
      simp only [nodeAt_enterStatus, if_true, List.mem_cons, true_or]
      split <;> cases nodeAt s j <;> rfl
    · simp [nodeAt_enterStatus, hk]

end Loops

section Driver

variable {s t : State}

/-- A round answers next only after `SETUP`, on a quiet bus, between rounds (R210). -/
theorem round_eq_next_iff :
    round s = .next t ↔
      s.drvSetupDone = true ∧ busQuiet s = true ∧ s.seqPhase = .idle ∧ roundBody s = .next t := by
  unfold round
  cases h1 : s.drvSetupDone <;> cases h2 : busQuiet s <;> by_cases h3 : s.seqPhase = .idle <;> simp [h3]

/-- One `STEP` is one round at the driver's tick, and the tick after it (R243). -/
theorem driverStep_eq_next_iff :
    driverStep s = .next t ↔
      ∃ u, round (setBusTick s s.drvTick) = .next u ∧ t = setDrvTick u (u.drvTick + 1) := by
  unfold driverStep
  rw [andThen_eq_next_iff]
  simp [eq_comm]

/-- One iteration of `RUN`: it returns at the boundary, or takes one `STEP` and goes on (R244). -/
theorem execRun_eq_next_iff :
    execRun s = .next t ↔
      s.drvSetupDone = true ∧
        ((runReturns s = true ∧ t = setRunning (setResult s .none) false) ∨
          (runReturns s = false ∧ ∃ u, driverStep s = .next u ∧ t = setRunning (setResult u .none) true)) := by
  unfold execRun
  cases h1 : s.drvSetupDone <;> cases h2 : runReturns s <;> simp [andThen_eq_next_iff]
  · constructor <;> rintro ⟨u, hu, rfl⟩ <;> exact ⟨u, hu, rfl⟩
  · exact eq_comm

/-- After `SETUP` a host that does not accept the loss of the invariants runs no node-level command (R298). -/
theorem nodeLevel_of_not_direct {i : Instr} (h : isDirect i s = false) (hs : s.drvSetupDone = true)
    (hd : s.hostDirect = false) : nodeLevel i = false := by
  simpa [isDirect, hs, hd] using h

/-- What a step does (R249): the looping `RUN`, nothing, or the next command if it names an operation
the host may issue. -/
theorem step_eq_next_iff :
    step s = .next t ↔
      (s.drvRunning = true ∧ execRun (acceptArrival s) = .next t) ∨
        (s.drvRunning = false ∧ s.commands = [] ∧ t = s) ∨
        (s.drvRunning = false ∧ s.seqPhase = .idle ∧
          ∃ c rest i, s.commands = c :: rest ∧ decode c.op c.args = .ok i ∧ i.wf = true ∧ isDirect i s = false ∧
            exec i { s with commands := rest } = .next t) := by
  unfold step fetch
  cases hr : s.drvRunning with
  | true => simp [exec]
  | false =>
    cases hc : s.commands with
    | nil =>
      simp only [if_false, Bool.false_eq_true, false_and, false_or, true_and]
      constructor
      · intro h
        exact .inl (by simpa using h.symm)
      · rintro (rfl | ⟨-, c, rest, i, h, -⟩)
        · rfl
        · simp at h
    | cons c rest =>
      by_cases hp : s.seqPhase = .idle
      · simp only [hp]
        unfold readCommand
        cases hd : decode c.op c.args with
        | error r => simp [hd]
        | ok i => cases hw : i.wf <;> cases hi : isDirect i s <;> simp [hd, hw, hi]
      · simp [hp]

end Driver

end Sys2Proof.Machine
end

