-- ==== Sys2Proof/Laws/PerInstr.lean ====
section
/-!
SUPPORT. The family CodeInTable: the command of every operation carries a code of the command table (30_encoding.md
R93: codes 0x00 to 0x1A), so the decoder never rejects it as reserved.
-/

namespace Sys2Proof.Laws.CodeInTable

def Statement (i : Instr) : Prop :=
  (Sys2Proof.encode i).op.toNat ≤ 0x1A ∧ Sys2Proof.decode (Sys2Proof.encode i).op (Sys2Proof.encode i).args ≠ .error .reservedCode

theorem reset : Statement .reset := ⟨by decide, by simp [Sys2Proof.encode, Sys2Proof.decode, takeNone]⟩
theorem crc16 (bs : List Byte) : Statement (.crc16 bs) := ⟨by simp [Sys2Proof.encode], by simp [Sys2Proof.encode, Sys2Proof.decode, takeBytes]⟩
theorem crcByte (crc : CrcWord) (b : Byte) : Statement (.crcByte crc b) :=
  ⟨by simp [Sys2Proof.encode], by simp [Sys2Proof.encode, Sys2Proof.decode, takeCrcByte]⟩
theorem construct (time : Nat) (data : List Byte) (priority : Int) : Statement (.construct time data priority) :=
  ⟨by simp [Sys2Proof.encode], by simp [Sys2Proof.encode, Sys2Proof.decode, takeFrameNew]⟩
theorem encode (f : Frame) : Statement (.encode f) :=
  ⟨by simp [Sys2Proof.encode], by simp [Sys2Proof.encode, Sys2Proof.decode, takeFrame]⟩
theorem decode (bits : Bits) : Statement (.decode bits) :=
  ⟨by simp [Sys2Proof.encode], by simp [Sys2Proof.encode, Sys2Proof.decode, takeBits]⟩
theorem corrupt (f : Frame) (byteIndex bitIndex : Nat) : Statement (.corrupt f byteIndex bitIndex) :=
  ⟨by simp [Sys2Proof.encode], by simp [Sys2Proof.encode, Sys2Proof.decode, takeFrameDraw]⟩
theorem repair (f : Frame) : Statement (.repair f) :=
  ⟨by simp [Sys2Proof.encode], by simp [Sys2Proof.encode, Sys2Proof.decode, takeFrame]⟩
theorem isvalid (f : Frame) : Statement (.isvalid f) :=
  ⟨by simp [Sys2Proof.encode], by simp [Sys2Proof.encode, Sys2Proof.decode, takeFrame]⟩
theorem nodeInit (k : Nat) (id : Nat) (listeners : List Nat) (frames : List Frame) :
    Statement (.nodeInit k id listeners frames) :=
  ⟨by simp [Sys2Proof.encode], by simp [Sys2Proof.encode, Sys2Proof.decode, takeNodeNew]⟩
theorem enterArbitration (k : Nat) : Statement (.enterArbitration k) :=
  ⟨by simp [Sys2Proof.encode], by simp [Sys2Proof.encode, Sys2Proof.decode, takeNode]⟩
theorem enterIdle (k : Nat) : Statement (.enterIdle k) :=
  ⟨by simp [Sys2Proof.encode], by simp [Sys2Proof.encode, Sys2Proof.decode, takeNode]⟩
theorem enterSending (k : Nat) : Statement (.enterSending k) :=
  ⟨by simp [Sys2Proof.encode], by simp [Sys2Proof.encode, Sys2Proof.decode, takeNode]⟩
theorem enterReceiving (k : Nat) : Statement (.enterReceiving k) :=
  ⟨by simp [Sys2Proof.encode], by simp [Sys2Proof.encode, Sys2Proof.decode, takeNode]⟩
theorem transmit (k : Nat) : Statement (.transmit k) :=
  ⟨by simp [Sys2Proof.encode], by simp [Sys2Proof.encode, Sys2Proof.decode, takeNode]⟩
theorem receive (k : Nat) : Statement (.receive k) :=
  ⟨by simp [Sys2Proof.encode], by simp [Sys2Proof.encode, Sys2Proof.decode, takeNode]⟩
theorem ackSuccess (k : Nat) : Statement (.ackSuccess k) :=
  ⟨by simp [Sys2Proof.encode], by simp [Sys2Proof.encode, Sys2Proof.decode, takeNode]⟩
theorem ackFailure (k : Nat) : Statement (.ackFailure k) :=
  ⟨by simp [Sys2Proof.encode], by simp [Sys2Proof.encode, Sys2Proof.decode, takeNode]⟩
theorem evict (k : Nat) : Statement (.evict k) :=
  ⟨by simp [Sys2Proof.encode], by simp [Sys2Proof.encode, Sys2Proof.decode, takeNode]⟩
theorem arbitrate : Statement .arbitrate :=
  ⟨by decide, by simp [Sys2Proof.encode, Sys2Proof.decode, takeNone]⟩
theorem round : Statement .round :=
  ⟨by decide, by simp [Sys2Proof.encode, Sys2Proof.decode, takeNone]⟩
theorem setup (errorLimit : Nat) (dupIdPolicy : DupIdPolicy) (nodeSpecs : List NodeSpec) :
    Statement (.setup errorLimit dupIdPolicy nodeSpecs) :=
  ⟨by simp [Sys2Proof.encode], by simp [Sys2Proof.encode, Sys2Proof.decode, takeSetup]⟩
theorem step : Statement .step :=
  ⟨by decide, by simp [Sys2Proof.encode, Sys2Proof.decode, takeNone]⟩
theorem run : Statement .run :=
  ⟨by decide, by simp [Sys2Proof.encode, Sys2Proof.decode, takeNone]⟩
theorem pause : Statement .pause :=
  ⟨by decide, by simp [Sys2Proof.encode, Sys2Proof.decode, takeNone]⟩
theorem stop : Statement .stop :=
  ⟨by decide, by simp [Sys2Proof.encode, Sys2Proof.decode, takeNone]⟩
theorem resume : Statement .resume :=
  ⟨by decide, by simp [Sys2Proof.encode, Sys2Proof.decode, takeNone]⟩

end Sys2Proof.Laws.CodeInTable
end

