-- ==== Sys2Proof/Laws/Round.lean ====
section
/-!
SUPPORT. What the steps of a round do, said once each: none of them touches the registers of `restOf`; arbitration and
the end of a round change nothing of a node but its status; only `EVICT` takes a slot out of `bus.connected`.
-/

namespace Sys2Proof.Machine

/-- The node record without its status. -/
def noStatus (n : Node) : Node := { n with status := .idle }

/-- The node records of two states differ in their status at most. -/
abbrev SameButStatus (s t : State) : Prop := ∀ k, (nodeAt t k).map noStatus = (nodeAt s k).map noStatus

section Rest

variable {s t : State} {k w : Nat}

@[simp] theorem restOf_emit (e : EventKind) : restOf (emit s e) = restOf s := rfl

@[simp] theorem restOf_setPhase (p : Phase) : restOf (setPhase s p) = restOf s := rfl

@[simp] theorem restOf_setResult (r : Result) : restOf (setResult s r) = restOf s := rfl

@[simp] theorem restOf_setConnected (ks : List Nat) : restOf (setConnected s ks) = restOf s := rfl

@[simp] theorem restOf_setOnBus (f : Option Frame) : restOf (setOnBus s f) = restOf s := rfl

@[simp] theorem restOf_setBitIndex (i : Nat) : restOf (setBitIndex s i) = restOf s := rfl

@[simp] theorem restOf_setWinner (o : Option Nat) (i : Nat) : restOf (setWinner s o i) = restOf s := rfl

@[simp] theorem restOf_setAckSeen (b : Bool) : restOf (setAckSeen s b) = restOf s := rfl

@[simp] theorem restOf_putNode (n : Node) : restOf (putNode s k n) = restOf s := by
  simp [restOf]

@[simp] theorem restOf_updateNode (f : Node → Node) : restOf (updateNode s k f) = restOf s := by
  simp [restOf]

@[simp] theorem restOf_emitNode (mk : Node → EventKind) : restOf (emitNode s k mk) = restOf s := by
  simp [restOf]

@[simp] theorem restOf_enterStatus (st : Status) : restOf (enterStatus st s k) = restOf s := by
  simp [enterStatus]

theorem restOf_forSlots {f : State → Nat → State} (h : ∀ s k, restOf (f s k) = restOf s) (ks : List Nat) (s : State) :
    restOf (forSlots f ks s) = restOf s :=
  forSlots_field restOf h ks s

@[simp] theorem restOf_takeError_frameCorruption : restOf (takeError (.frameCorruption k) s) = restOf s := by
  simp [takeError]

@[simp] theorem restOf_takeError_acknowledgmentFailure :
    restOf (takeError (.acknowledgmentFailure k) s) = restOf s := by
  simp [takeError]

@[simp] theorem restOf_takeError_busOff : restOf (takeError (.busOff k) s) = restOf s := by
  simp [takeError, disconnect]

@[simp] theorem restOf_enterEligible : restOf (enterEligible s) = restOf s := by
  unfold enterEligible announceStart
  split <;> simp [restOf_forSlots]

@[simp] theorem restOf_compareIndex (i : Nat) (a : List Nat) (ld : Option Nat) :
    restOf (compareIndex i a ld s).1 = restOf s := by
  unfold compareIndex eliminate
  split <;> simp [restOf_forSlots, reportBits]

@[simp] theorem restOf_arbLoop (is : List Nat) (ld : Option Nat) (s : State) :
    restOf (arbLoop is ld s).st = restOf s := by
  induction is generalizing ld s with
  | nil => simp [arbLoop]
  | cons i is ih =>
    unfold arbLoop
    split <;> simp [ih]

@[simp] theorem restOf_announceWinner : restOf (announceWinner s) = restOf s := by
  unfold announceWinner
  split <;> simp

/-- Exhaustion writes the winner registers and nothing else (R196, R199). -/
theorem exhaust_eq_next {ld : Option Nat} (h : exhaust ld s = .next t) : ∃ o i, t = setWinner s o i := by
  unfold exhaust at h
  split at h
  · exact ⟨_, _, by simpa using h.symm⟩
  · exact ⟨_, _, by simpa using h.symm⟩
  · split at h
    · simp at h
    · exact ⟨_, _, by simpa using h.symm⟩

/-- Steps 1 to 3 leave the rest of the state alone. -/
theorem restOf_arbitrate (h : arbitrate s = .next t) : restOf t = restOf s := by
  unfold arbitrate finishArbitration at h
  rw [andThen_eq_next_iff] at h
  obtain ⟨u, hu, ht⟩ := h
  obtain rfl : announceWinner u = t := by simpa using ht
  rw [restOf_announceWinner]
  split at hu
  · obtain rfl := by simpa using hu
    simp
  · obtain ⟨o, i, rfl⟩ := exhaust_eq_next hu
    simp

end Rest

section Arbitration

variable {s t : State}

theorem sameButStatus_forSlots_enterStatus (st : Status) (ks : List Nat) (s : State) :
    SameButStatus s (forSlots (enterStatus st) ks s) := by
  intro k
  rw [nodeAt_forSlots_enterStatus]
  split
  · cases nodeAt s k <;> rfl
  · rfl

theorem forSlots_enterStatus_connected (st : Status) (ks : List Nat) (s : State) :
    (forSlots (enterStatus st) ks s).busConnected = s.busConnected :=
  forSlots_field State.busConnected (fun s k => by simp [enterStatus]) ks s

theorem forSlots_enterStatus_onBus (st : Status) (ks : List Nat) (s : State) :
    (forSlots (enterStatus st) ks s).busOnBus = s.busOnBus :=
  forSlots_field State.busOnBus (fun s k => by simp [enterStatus]) ks s

/-- Reporting bits appends events and touches nothing else. -/
theorem nodeAt_reportBits (i : Nat) (a : List Nat) (s : State) (k : Nat) :
    nodeAt (reportBits i a s) k = nodeAt s k :=
  forSlots_field (nodeAt · k) (fun s j => by simp) a s

theorem reportBits_connected (i : Nat) (a : List Nat) (s : State) :
    (reportBits i a s).busConnected = s.busConnected :=
  forSlots_field State.busConnected (fun s j => by simp) a s

theorem sameButStatus_enterEligible (s : State) : SameButStatus s (enterEligible s) := by
  intro k
  unfold enterEligible announceStart
  split
  · exact sameButStatus_forSlots_enterStatus _ _ s k
  · rw [nodeAt_emit]
    exact sameButStatus_forSlots_enterStatus _ _ s k

@[simp] theorem enterEligible_connected (s : State) : (enterEligible s).busConnected = s.busConnected := by
  unfold enterEligible announceStart
  split <;> simp [forSlots_enterStatus_connected]

theorem sameButStatus_compareIndex (i : Nat) (a : List Nat) (ld : Option Nat) (s : State) :
    SameButStatus s (compareIndex i a ld s).1 := by
  intro k
  unfold compareIndex eliminate
  split
  · rw [nodeAt_reportBits]
  · rw [sameButStatus_forSlots_enterStatus _ _ _ k, nodeAt_reportBits]

@[simp] theorem compareIndex_connected (i : Nat) (a : List Nat) (ld : Option Nat) (s : State) :
    (compareIndex i a ld s).1.busConnected = s.busConnected := by
  unfold compareIndex eliminate
  split <;> simp [forSlots_enterStatus_connected, reportBits_connected]

/-- The comparator changes nothing of a node but its status, and nobody's connection (R193). -/
theorem arbLoop_keeps (is : List Nat) (ld : Option Nat) (s : State) :
    SameButStatus s (arbLoop is ld s).st ∧ (arbLoop is ld s).st.busConnected = s.busConnected := by
  induction is generalizing ld s with
  | nil => exact ⟨fun k => rfl, rfl⟩
  | cons i is ih =>
    unfold arbLoop
    split
    · exact ⟨fun k => rfl, rfl⟩
    · exact ⟨fun k => (ih _ _).1 k, (ih _ _).2⟩
    · refine ⟨fun k => ?_, ?_⟩
      · rw [(ih _ _).1 k]
        exact sameButStatus_compareIndex _ _ _ _ k
      · rw [(ih _ _).2, compareIndex_connected, setBitIndex_busConnected]

/-- Arbitration changes nothing of a node but its status, and nobody's connection (R195, R202). -/
theorem arbitrate_keeps (h : arbitrate s = .next t) : SameButStatus s t ∧ t.busConnected = s.busConnected := by
  unfold arbitrate finishArbitration at h
  rw [andThen_eq_next_iff] at h
  obtain ⟨u, hu, ht⟩ := h
  obtain rfl : announceWinner u = t := by simpa using ht
  have key : SameButStatus s u ∧ u.busConnected = s.busConnected := by
    have hl := arbLoop_keeps (List.range Config.idBits) none (enterEligible (setWinner s none 0))
    have he := sameButStatus_enterEligible (setWinner s none 0)
    have hst : SameButStatus s (arbLoop (List.range Config.idBits) none (enterEligible (setWinner s none 0))).st :=
      fun k => (hl.1 k).trans (he k)
    have hc := hl.2.trans (enterEligible_connected _)
    split at hu
    · obtain rfl := by simpa using hu
      exact ⟨hst, hc⟩
    · obtain ⟨o, i, rfl⟩ := exhaust_eq_next hu
      exact ⟨hst, hc⟩
  unfold announceWinner
  split
  · exact ⟨fun k => by rw [nodeAt_emitNode]; exact key.1 k, by rw [emitNode_busConnected]; exact key.2⟩
  · exact key

end Arbitration

section Delivery

variable {s t : State} {w k j : Nat} {f : Frame}

/-- Step 4 answers next exactly when the winner, Sending, has a head frame after its listeners have entered Receiving;
the frame goes on the bus and the fields are reported (R213, R214). -/
theorem transmission_eq_next_iff {ls : List Nat} :
    transmission w ls s = .next t ↔
      ∃ n f, nodeAt (forSlots (enterStatus .receiving) ls s) w = some n ∧ n.status = .sending ∧ n.next = some f ∧
        t = emitFields w (setOnBus (forSlots (enterStatus .receiving) ls s) (some f)) := by
  unfold transmission
  rw [andThen_eq_next_iff]
  constructor
  · rintro ⟨u, hu, ht⟩
    obtain ⟨n, f, hn, hs, hf, rfl⟩ := transmit_eq_next_iff.mp hu
    exact ⟨n, f, hn, hs, hf, by simpa using ht.symm⟩
  · rintro ⟨n, f, hn, hs, hf, rfl⟩
    exact ⟨_, transmit_eq_next_iff.mpr ⟨n, f, hn, hs, hf, rfl⟩, rfl⟩

/-- Reporting the fields keeps every field of the state that emitting keeps. -/
theorem emitFields_field {α : Type} (g : State → α) (h : ∀ s e, g (emit s e) = g s) (w : Nat) (s : State) :
    g (emitFields w s) = g s := by
  have hl : ∀ (l : List (FieldName × Bits)) (s : State),
      g (l.foldl (fun s p => emitNode s w fun n => .frameFieldSent n.id p.1 p.2) s) = g s := by
    intro l
    induction l with
    | nil => exact fun _ => rfl
    | cons p l ih =>
      intro s
      rw [List.foldl_cons, ih]
      unfold emitNode
      split
      · exact h _ _
      · rfl
  unfold emitFields
  split
  · exact hl _ _
  · rfl

/-- One listener's reception of the frame on the bus (R216, R171). -/
theorem nodeAt_receiveStep (hf : s.busOnBus = some f) :
    nodeAt (receiveStep s k) j =
      if frameValid f = false ∧ j = k then
        (nodeAt s j).map fun n => { n with receiveErrors := n.receiveErrors + 1 }
      else nodeAt s j := by
  unfold receiveStep receive
  rw [hf]
  cases hv : frameValid f
  · by_cases hj : j = k
    · subst hj
      simp [hv, nodeAt_takeError_frameCorruption]
    · simp [hv, hj, nodeAt_takeError_frameCorruption]
  · simp [hv]

@[simp] theorem receiveStep_onBus : (receiveStep s k).busOnBus = s.busOnBus := by
  unfold receiveStep receive takeError
  split
  · split <;> simp
  · rfl

theorem receiveStep_ackSeen (hf : s.busOnBus = some f) :
    (receiveStep s k).seqAckSeen = (s.seqAckSeen || frameValid f) := by
  unfold receiveStep receive
  rw [hf]
  cases hv : frameValid f <;> simp [hv]

/-- The acknowledgment slot (R216): every listener of a list without repeats counts an invalid frame once. -/
theorem nodeAt_forSlots_receiveStep {ls : List Nat} (hf : s.busOnBus = some f) (hls : ls.Nodup) :
    nodeAt (forSlots receiveStep ls s) j =
      if frameValid f = false ∧ j ∈ ls then
        (nodeAt s j).map fun n => { n with receiveErrors := n.receiveErrors + 1 }
      else nodeAt s j := by
  induction ls generalizing s with
  | nil => simp
  | cons k ls ih =>
    obtain ⟨hk, hls⟩ := List.nodup_cons.mp hls
    rw [forSlots_cons, ih (by rw [receiveStep_onBus, hf]) hls, nodeAt_receiveStep hf]
    by_cases hj : j = k
    · subst hj
      simp [hk]
    · simp [hj]

theorem forSlots_receiveStep_ackSeen {ls : List Nat} (hf : s.busOnBus = some f) :
    (forSlots receiveStep ls s).seqAckSeen = (s.seqAckSeen || (!ls.isEmpty && frameValid f)) := by
  induction ls generalizing s with
  | nil => simp
  | cons k ls ih =>
    rw [forSlots_cons, ih (by rw [receiveStep_onBus, hf]), receiveStep_ackSeen hf]
    cases s.seqAckSeen <;> cases frameValid f <;> simp

/-- Step 5 (R216, R217): `seq.ackSeen` is set exactly if there is a listener and the frame is valid. -/
theorem acknowledgment_ackSeen {ls : List Nat} (hf : s.busOnBus = some f) :
    (acknowledgment w ls s).seqAckSeen = (!ls.isEmpty && frameValid f) := by
  unfold acknowledgment reportAck
  rw [emitNode_seqAckSeen, forSlots_receiveStep_ackSeen (f := f) (by simpa using hf)]
  simp

theorem nodeAt_acknowledgment {ls : List Nat} (hf : s.busOnBus = some f) (hls : ls.Nodup) :
    nodeAt (acknowledgment w ls s) j =
      if frameValid f = false ∧ j ∈ ls then
        (nodeAt s j).map fun n => { n with receiveErrors := n.receiveErrors + 1 }
      else nodeAt s j := by
  unfold acknowledgment reportAck
  rw [nodeAt_emitNode, nodeAt_forSlots_receiveStep (f := f) (by simpa using hf) hls]
  simp

/-- Step 6 (R219, R220): the winner's head frame is dequeued, or its failure counted and the frame repaired. -/
theorem nodeAt_outcome :
    nodeAt (outcome w s) j =
      if j = w then
        (nodeAt s w).map
          (if s.seqAckSeen then popNext
          else fun n => { n with transmitErrors := n.transmitErrors + 1, next := n.next.map repairFrame })
      else nodeAt s j := by
  unfold outcome
  cases s.seqAckSeen
  · simp [reportFailure, ackFailure, nodeAt_takeError_acknowledgmentFailure]
  · simp [ackSuccess, nodeAt_updateNode]

/-- Step 7 (R222): eviction exactly when the limit is reached. -/
theorem nodeAt_evictionCheck :
    nodeAt (evictionCheck w s) j =
      if limitReached s w = true ∧ j = w then (nodeAt s w).map ({ · with status := .evicted }) else nodeAt s j := by
  unfold evictionCheck
  cases limitReached s w
  · simp
  · simp [evict, nodeAt_takeError_busOff]

theorem evictionCheck_connected :
    (evictionCheck w s).busConnected =
      if limitReached s w = true then s.busConnected.filter (· ≠ w) else s.busConnected := by
  unfold evictionCheck
  split
  · simp [evict]
  · rfl

/-- One node's return to Idle (R224). -/
theorem nodeAt_idleStep :
    nodeAt (idleStep s k) j = if j = k then (nodeAt s k).map ({ · with status := .idle }) else nodeAt s j := by
  unfold idleStep
  split
  · rename_i h
    by_cases hj : j = k
    · subst hj
      unfold statusIs at h
      cases hn : nodeAt s j with
      | none => simp
      | some n =>
        rw [hn] at h
        have : n.status = .idle := by simpa using h
        simp [← this]
    · simp [hj]
  · exact nodeAt_enterStatus

theorem nodeAt_forSlots_idleStep (ks : List Nat) (s : State) :
    nodeAt (forSlots idleStep ks s) j =
      if j ∈ ks then (nodeAt s j).map ({ · with status := .idle }) else nodeAt s j := by
  induction ks generalizing s with
  | nil => simp
  | cons k ks ih =>
    rw [forSlots_cons, ih, nodeAt_idleStep]
    by_cases hk : j = k
    · subst hk
      simp only [if_true, List.mem_cons, true_or]
      split <;> cases nodeAt s j <;> rfl
    · simp [hk]

/-- Step 8 (R224): every connected node is Idle afterwards, the others are as they were, the bus is clear. -/
theorem nodeAt_roundReset :
    nodeAt (roundReset s) j =
      if j ∈ s.busConnected then (nodeAt s j).map ({ · with status := .idle }) else nodeAt s j := by
  unfold roundReset
  rw [nodeAt_setPhase, nodeAt_emit, nodeAt_setOnBus, nodeAt_forSlots_idleStep]
  simp

@[simp] theorem roundReset_connected : (roundReset s).busConnected = s.busConnected := by
  unfold roundReset
  rw [setPhase_busConnected, emit_busConnected, setOnBus_busConnected]
  rw [forSlots_field State.busConnected (fun s k => by unfold idleStep; split <;> simp [enterStatus])]
  simp

@[simp] theorem roundReset_onBus : (roundReset s).busOnBus = none := rfl

@[simp] theorem roundReset_phase : (roundReset s).seqPhase = .idle := rfl

/-- Step 8 leaves the rest of the state alone. -/
@[simp] theorem restOf_roundReset : restOf (roundReset s) = restOf s := by
  unfold roundReset
  rw [restOf_setPhase, restOf_emit, restOf_setOnBus, restOf_forSlots, restOf_setPhase]
  intro s k
  unfold idleStep
  split <;> simp

/-- A round leaves alone the tick registers, the requests, the configuration and the host's ports (R68). -/
theorem restOf_roundBody (h : roundBody s = .next t) : restOf t = restOf s := by
  unfold roundBody at h
  rw [andThen_eq_next_iff] at h
  obtain ⟨u, hu, ht⟩ := h
  have hu' : restOf u = restOf s := by simpa using restOf_arbitrate hu
  split at ht
  · rename_i w hw
    rw [andThen_eq_next_iff] at ht
    obtain ⟨v, hv, ht⟩ := ht
    obtain rfl : roundReset v = t := by simpa using ht
    rw [restOf_roundReset, ← hu']
    unfold deliver deliverTo at hv
    rw [andThen_eq_next_iff] at hv
    obtain ⟨x, hx, hv⟩ := hv
    obtain ⟨n, f, hn, hs, hf, rfl⟩ := transmission_eq_next_iff.mp hx
    obtain rfl := by simpa using hv
    have h1 : ∀ y, restOf (evictionCheck w y) = restOf y := by
      intro y
      unfold evictionCheck
      split <;> simp [evict]
    have h2 : ∀ y, restOf (outcome w y) = restOf y := by
      intro y
      unfold outcome reportFailure ackFailure ackSuccess
      split <;> simp
    have h3 : ∀ ls y, restOf (acknowledgment w ls y) = restOf y := by
      intro ls y
      unfold acknowledgment reportAck
      rw [restOf_emitNode, restOf_forSlots]
      · simp
      · intro s k
        unfold receiveStep receive
        split
        · split <;> simp
        · rfl
    rw [h1, h2, h3, emitFields_field restOf (fun s e => rfl), restOf_setOnBus, restOf_forSlots]
    · simp
    · simp
  · obtain rfl := by simpa using ht
    rw [restOf_roundReset, hu']

end Delivery

section Setup

variable {s t : State}

/-- The loop of `SETUP` connects the slots from j on, in order, and leaves the rest of the state alone (R241). -/
theorem setupNodes_keeps {j : Nat} {specs : List NodeSpec} (h : setupNodes j specs s = .next t) :
    restOf t = restOf s ∧ t.busConnected = s.busConnected ++ List.range' j specs.length := by
  induction specs generalizing j s with
  | nil =>
    obtain rfl : s = t := by simpa [setupNodes] using h
    simp
  | cons n rest ih =>
    rw [setupNodes, andThen_eq_next_iff] at h
    obtain ⟨u, hu, ht⟩ := h
    obtain ⟨-, -, -, rfl⟩ := nodeInit_eq_next_iff.mp hu
    obtain ⟨hr, hc⟩ := ih ht
    refine ⟨by simpa using hr, ?_⟩
    rw [hc]
    simp [List.range'_succ]

end Setup

end Sys2Proof.Machine
end

