-- ==== Sys2Proof/Tests/Slice0.lean ====
section
/-!
SUPPORT. The model's own tests: the well-formedness checks refuse ill-formed operands; the command codes of
30_encoding.md R93 decode to their operations; vectors of 95_test_vectors.md; and for every obligation that has hypotheses
a state and operands that meet them.
-/

namespace Sys2Proof.Tests

open Sys2Proof Sys2Proof.Machine

/-- One field of the next state of an outcome. -/
def after {α : Type} (o : Host.Outcome State Fault Refusal) (g : State → α) : Option α :=
  match o with
  | .next s => some (g s)
  | .fault _ => none
  | .refused _ => none

/-- The refusal of an outcome. -/
def refusal (o : Host.Outcome State Fault Refusal) : Option Refusal :=
  match o with
  | .next _ => none
  | .fault _ => none
  | .refused r => some r

/-- The kinds of the events of an outcome, in order. -/
def kinds (o : Host.Outcome State Fault Refusal) : Option (List EventKind) := after o fun s => s.events.map Event.kind

/-- "HELLO", in ASCII. -/
def hello : List Byte := [0x48, 0x45, 0x4C, 0x4C, 0x4F]

/-- A valid frame of the one byte "A" (CRC 0xB915, vector V5). -/
def frameA (time : Nat) (priority : BitVec 11) : Frame := ⟨time, priority, [0x41], 0xB915⟩

/-- A frame of 15 bytes, whose stored CRC is wrong. -/
def longFrame : Frame := ⟨0, 7, List.replicate 15 0, 0⟩

/-- A node with id i that holds the head frame f, if any, and waits for more. -/
def node (i : Nat) (f : Option Frame) (listeners : List Nat) : Node :=
  { id := i, pending := [], next := f, listeners := listeners, status := .idle, transmitErrors := 0, receiveErrors := 0 }

/-- A bus after `SETUP` with error limit 2 on which the given nodes are connected in order. -/
def bus (nodes : List Node) : State :=
  { State.reset with
    nodes := nodes.map some
    busConnected := List.range nodes.length
    drvSetupDone := true
    cfgErrorLimit := 2 }

/-- Ids 1 and 2, priorities 100 and 200; node 2 listens to node 1, as in program P1. -/
def twoNodes : State := bus [node 1 (some (frameA 0 100)) [2], node 2 (some (frameA 0 200)) []]

/-- Two contenders with one priority. -/
def twins (priority : BitVec 11) (policy : DupIdPolicy) : State :=
  { bus [node 1 (some (frameA 0 priority)) [2], node 2 (some (frameA 0 priority)) [1]] with cfgDupIdPolicy := policy }

/-- Node 1 Sending the head frame f. -/
def sender (f : Frame) : State := bus [{ node 1 (some f) [2] with status := .sending }, node 2 none []]

/-! ## Well-formedness: each check refuses an ill-formed operand -/

theorem test_wf_frame : (frameA 0 5).wf = true ∧ longFrame.wf = true ∧ (Frame.mk 0 5 [] 0).wf = false ∧
    (Frame.mk 0 5 (List.replicate 16 0) 0).wf = false := by decide

theorem test_wf_frame_operands :
    (Instr.encode ⟨0, 5, [], 0⟩).wf = false ∧ (Instr.repair ⟨0, 5, [], 0⟩).wf = false ∧
      (Instr.isvalid ⟨0, 5, [], 0⟩).wf = false ∧ (Instr.corrupt ⟨0, 5, [], 0⟩ 0 0).wf = false := by decide

theorem test_wf_draws :
    (Instr.corrupt (frameA 0 5) 0 7).wf = true ∧ (Instr.corrupt (frameA 0 5) 1 0).wf = false ∧
      (Instr.corrupt (frameA 0 5) 0 8).wf = false := by decide

theorem test_wf_nodeInit :
    (Instr.nodeInit 0 1 [2, 3] [frameA 0 5]).wf = true ∧ (Instr.nodeInit 0 1 [3, 2] []).wf = false ∧
      (Instr.nodeInit 0 1 [2, 2] []).wf = false ∧ (Instr.nodeInit 0 1 [] [⟨0, 5, [], 0⟩]).wf = false := by decide

theorem test_wf_setup :
    (Instr.setup 1 .refuse [⟨1, [2], [frameA 0 5]⟩]).wf = true ∧ (Instr.setup 1 .refuse [⟨1, [3, 2], []⟩]).wf = false ∧
      (Instr.setup 1 .refuse [⟨1, [], [⟨0, 5, [], 0⟩]⟩]).wf = false := by decide

/-! ## Decoding: the five code bits of R93, written out, most significant first -/

theorem test_decode_driver :
    decode 0b00000 .none = .ok .reset ∧ decode 0b10101 (.setup 3 .refuse []) = .ok (.setup 3 .refuse []) ∧
      decode 0b10110 .none = .ok .step ∧ decode 0b10111 .none = .ok .run ∧ decode 0b11000 .none = .ok .pause ∧
      decode 0b11001 .none = .ok .stop ∧ decode 0b11010 .none = .ok .resume := by decide

theorem test_decode_crc :
    decode 0b00001 (.bytes [0x41]) = .ok (.crc16 [0x41]) ∧
      decode 0b00010 (.crcByte 0xFFFF 0x41) = .ok (.crcByte 0xFFFF 0x41) := by decide

theorem test_decode_frame :
    decode 0b00011 (.frameNew 2 [0x41] (-1)) = .ok (.construct 2 [0x41] (-1)) ∧
      decode 0b00100 (.frame longFrame) = .ok (.encode longFrame) ∧
      decode 0b00101 (.bits [true, false]) = .ok (.decode [true, false]) ∧
      decode 0b00110 (.frameDraw longFrame 14 7) = .ok (.corrupt longFrame 14 7) ∧
      decode 0b00111 (.frame longFrame) = .ok (.repair longFrame) ∧
      decode 0b01000 (.frame longFrame) = .ok (.isvalid longFrame) := by decide

theorem test_decode_node :
    decode 0b01001 (.nodeNew 3 1 [5, 2, 5] []) = .ok (.nodeInit 3 1 [2, 5] []) ∧
      decode 0b01010 (.node 3) = .ok (.enterArbitration 3) ∧ decode 0b01011 (.node 3) = .ok (.enterIdle 3) ∧
      decode 0b01100 (.node 3) = .ok (.enterSending 3) ∧ decode 0b01101 (.node 3) = .ok (.enterReceiving 3) ∧
      decode 0b01110 (.node 3) = .ok (.transmit 3) ∧ decode 0b01111 (.node 3) = .ok (.receive 3) ∧
      decode 0b10000 (.node 3) = .ok (.ackSuccess 3) ∧ decode 0b10001 (.node 3) = .ok (.ackFailure 3) ∧
      decode 0b10010 (.node 3) = .ok (.evict 3) := by decide

theorem test_decode_round :
    decode 0b10011 .none = .ok .arbitrate ∧ decode 0b10100 .none = .ok .round := by decide

/-- V136, and the operand forms of R94. -/
theorem test_decode_rejects :
    decode 0b11011 .none = .error .reservedCode ∧ decode 0b11111 .none = .error .reservedCode ∧
      decode 0b00001 .none = .error .operandForm ∧ decode 0b00000 (.node 0) = .error .operandForm := by decide

theorem test_decode_table_word :
    decodeTableWord 8 0x00 = some .reset ∧ decodeTableWord 8 0x04 = some (.encode ⟨0, 0, [0], 0⟩) ∧
      decodeTableWord 8 0x1A = some .resume ∧ decodeTableWord 8 0x1B = none := by decide

theorem test_fetch_word :
    fetch (State.reset.withFetchWord 8 0x18) = .issue .pause State.reset ∧
      fetch (State.reset.withFetchWord 8 0x1B) = .refuse .reservedCommand := by decide

/-- R268, R298, R296: a node-level command after `SETUP` is refused, unless the host accepts the loss of the
invariants. -/
theorem test_direct_command :
    refusal (step { twoNodes with commands := [⟨0b10010, .node 0⟩] }) = some .directNodeCommand ∧
      after (step { twoNodes with commands := [⟨0b10010, .node 0⟩], hostDirect := true }) State.busConnected = some [1] := by
  decide

/-- R7: `N_NODES` is open: a block of 17 slots accepts 17 nodes. -/
theorem test_open_slots :
    after (exec (.setup 1 .refuse ((List.range 17).map fun i => ⟨i, [], []⟩)) (State.resetOf 17))
        (fun s => s.busConnected.length) = some 17 := by decide +kernel

/-- R253: one in n+1. -/
theorem test_corruption_probability : Config.corruptionProbability 4 = 1 / 5 := by
  norm_num [Config.corruptionProbability]

/-! ## The CRC-16 generator (95_test_vectors.md section 2.1) -/

/-- V1, V2, V3, V11. -/
theorem test_crc16 :
    crc16 [] = 0xFFFF ∧ crc16 [0x00] = 0xE1F0 ∧
      crc16 [0x31, 0x32, 0x33, 0x34, 0x35, 0x36, 0x37, 0x38, 0x39] = 0x29B1 ∧ crc16 [0xFF, 0xFF] = 0x0000 := by
  decide +kernel

/-- V20, V21. -/
theorem test_crcByte :
    after (exec (.crcByte 0xFFFF 0x41) State.reset) State.result = some (.word 0xB915) ∧
      after (exec (.crcByte 0x582B 0x4F) State.reset) State.result = some (.word 0x49D6) := by decide +kernel

/-! ## The frame encoder/decoder (sections 2.3 to 2.5) -/

/-- V40, V43: the whole frame string. -/
theorem test_encode :
    frameBits ⟨0, 100, hello, 0x49D6⟩ =
        bin 11 0b00001100100 ++ bin 3 0b000 ++ bin 4 0b0101 ++ bin 40 0b0100100001000101010011000100110001001111
          ++ bin 16 0b0100100111010110 ++ bin 12 0b111111111111 ∧
      frameBits ⟨0, 31, [0x41], 0xB915⟩ =
        bin 11 0b00000011111 ++ bin 1 0b0 ++ bin 3 0b000 ++ bin 4 0b0001 ++ bin 8 0b01000001
          ++ bin 16 0b1011100100010101 ++ bin 12 0b111111111111 := by decide +kernel

/-- V40, V54, V55, V56, V57. -/
theorem test_construct :
    after (exec (.construct 0 hello 100) State.reset) State.result = some (.frame ⟨0, 100, hello, 0x49D6⟩) ∧
      after (exec (.construct 0 [0x41] 2047) State.reset) State.result = some (.frame ⟨0, 2047, [0x41], 0xB915⟩) ∧
      after (exec (.construct 0 [0x41] 2048) State.reset) State.result = some (.error .constructionError) ∧
      after (exec (.construct 0 [0x41] (-1)) State.reset) State.result = some (.error .constructionError) ∧
      after (exec (.construct 0 [] 100) State.reset) State.result = some (.error .constructionError) := by
  decide +kernel

/-- V59: 16 bytes. -/
theorem test_construct_too_long :
    refusal (exec (.construct 0 (List.replicate 16 0x01) 7) State.reset) = some .payloadTooLong := by decide +kernel

/-- V67 and the errors V69b and V69c. -/
theorem test_decode_strings :
    after (exec (.decode (frameBits ⟨0, 100, hello, 0x49D6⟩)) State.reset) State.result =
        some (.fields 100 hello 0x49D6) ∧
      after (exec (.decode (frameBits ⟨0, 100, hello, 0x49D6⟩).dropLast) State.reset) State.result =
        some (.error .decodeError) ∧
      after (exec (.decode ((frameBits ⟨0, 96, hello, 0x49D6⟩).set 11 false)) State.reset) State.result =
        some (.error .decodeError) := by decide +kernel

/-- V61, V66. -/
theorem test_corrupt :
    after (exec (.corrupt ⟨2, 96, hello, 0x49D6⟩ 0 0) State.reset) State.result =
        some (.frame ⟨2, 96, [0x49, 0x45, 0x4C, 0x4C, 0x4F], 0x49D6⟩) ∧
      after (exec (.corrupt ⟨0, 100, hello, 0x49D6⟩ 4 7) State.reset) State.result =
        some (.frame ⟨0, 100, [0x48, 0x45, 0x4C, 0x4C, 0xCF], 0x49D6⟩) := by decide +kernel

/-- V62. -/
theorem test_repair :
    after (exec (.repair ⟨2, 96, [0x49, 0x45, 0x4C, 0x4C, 0x4F], 0x49D6⟩) State.reset) State.result =
      some (.frame ⟨2, 96, [0x49, 0x45, 0x4C, 0x4C, 0x4F], 0xE387⟩) := by decide +kernel

/-- V60, V61. -/
theorem test_isvalid :
    after (exec (.isvalid ⟨2, 96, hello, 0x49D6⟩) State.reset) State.result = some (.valid true) ∧
      after (exec (.isvalid ⟨2, 96, [0x49, 0x45, 0x4C, 0x4C, 0x4F], 0x49D6⟩) State.reset) State.result =
        some (.valid false) := by decide +kernel

/-! ## The node operations (section 2.6) -/

/-- V100, V102. -/
theorem test_nodeInit :
    after (exec (.nodeInit 0 1 [2] [frameA 0 100, frameA 3 200]) State.reset) (nodeAt · 0) =
        some (some ⟨1, [frameA 3 200], some (frameA 0 100), [2], .idle, 0, 0⟩) ∧
      refusal (exec (.nodeInit 2 3 [3] []) State.reset) = some .selfListener := by decide

/-- V103, V104, V105, V117. -/
theorem test_enter :
    kinds (exec (.enterArbitration 0) twoNodes) = some [.statusChanged 1 .arbitrating] ∧
      kinds (exec (.enterSending 0) twoNodes) = some [.statusChanged 1 .sending] ∧
      after (exec (.enterReceiving 1) twoNodes) (fun s => (nodeAt s 1).map Node.status) = some (some .receiving) ∧
      after (exec (.enterIdle 0) (sender (frameA 0 5))) (fun s => (nodeAt s 0).map Node.status) = some (some .idle) := by
  decide

/-- V106, V107. -/
theorem test_transmit :
    after (exec (.transmit 0) (sender (frameA 0 5))) State.busOnBus = some (some (frameA 0 5)) ∧
      refusal (exec (.transmit 0) twoNodes) = some .transmitPrecondition := by decide

/-- V108, V109, V110. -/
theorem test_receive :
    after (exec (.receive 1) { twoNodes with busOnBus := some (frameA 0 5) }) State.result = some (.ack true) ∧
      after (exec (.receive 1) { twoNodes with busOnBus := some longFrame })
        (fun s => (s.result, (nodeAt s 1).map Node.receiveErrors)) = some (.ack false, some 1) ∧
      refusal (exec (.receive 1) twoNodes) = some .receiveEmptyBus := by decide +kernel

/-- V112, V113. -/
theorem test_ackSuccess :
    after (exec (.ackSuccess 0) twoNodes) (fun s => (nodeAt s 0).map Node.next) = some (some none) ∧
      refusal (exec (.ackSuccess 1) (sender longFrame)) = some .ackWithoutFrame := by decide

/-- V114. -/
theorem test_ackFailure :
    after (exec (.ackFailure 0) (sender ⟨2, 96, [0x49, 0x45, 0x4C, 0x4C, 0x4F], 0x49D6⟩))
        (fun s => (nodeAt s 0).map fun n => (n.transmitErrors, n.next)) =
      some (some (1, some ⟨2, 96, [0x49, 0x45, 0x4C, 0x4C, 0x4F], 0xE387⟩)) := by decide +kernel

/-- V116. -/
theorem test_evict :
    after (exec (.evict 0) (sender (frameA 0 5))) (fun s => (s.busConnected, s.events, (nodeAt s 0).map Node.status)) =
      some ([1], [⟨0, .nodeEvicted 1⟩], some .evicted) := by decide

/-! ## The arbitrator and the round (sections 2.7 and 2.8) -/

/-- V72 and V74: the winner's slot and `wonAt`. -/
theorem test_arbitrate :
    after (exec .arbitrate twoNodes) State.result = some (.arbitration (some 0) 4) ∧
      after (exec .arbitrate (bus [node 1 (some (frameA 0 2047)) [], node 2 (some (frameA 0 2046)) []])) State.result =
        some (.arbitration (some 1) 11) := by decide +kernel

/-- V81, V82. -/
theorem test_arbitrate_duplicates :
    refusal (exec .arbitrate (twins 300 .refuse)) = some .duplicateIds ∧
      after (exec .arbitrate (twins 300 .lastDominant)) (fun s => (s.result, s.events.length)) =
        some (.arbitration (some 1) 11, 26) ∧
      after (exec .arbitrate (twins 2047 .lastDominant)) State.result = some (.arbitration none 11) := by decide +kernel

/-- V84 on the bus of program P1: the tick-0 events from `ArbitrationWon` on, the fields with their bits. -/
theorem test_round_success :
    (kinds (exec .round twoNodes)).map (List.drop 12) =
      some
        [ .arbitrationWon 1 4, .statusChanged 1 .sending, .statusChanged 2 .receiving,
          .frameFieldSent 1 .arbRemaining (bin 7 0b1100100), .frameFieldSent 1 .rtr [false],
          .frameFieldSent 1 .ide [false], .frameFieldSent 1 .reserved [false],
          .frameFieldSent 1 .data (bin 8 0b01000001), .frameFieldSent 1 .crc (bin 16 0b1011100100010101),
          .frameFieldSent 1 .ack [true, true], .frameFieldSent 1 .eof (List.replicate 7 true),
          .frameFieldSent 1 .ifs (List.replicate 3 true), .acknowledgmentResult 1 true, .statusChanged 1 .idle,
          .statusChanged 2 .idle, .roundReset ] := by decide +kernel

/-- V90: limit 1, no listener. -/
theorem test_round_eviction :
    (kinds (exec .round { bus [node 2 (some (frameA 0 200)) []] with cfgErrorLimit := 1 })).map (List.drop 13) =
      some [.acknowledgmentResult 2 false, .transmitFailure 2 1, .nodeEvicted 2, .roundReset] := by decide +kernel

/-! ## The driver (section 2.9) -/

/-- V127, and a reset while no command has run. -/
theorem test_reset :
    after (exec .reset { twoNodes with drvStopReq := true, drvTick := 2 })
        (fun s => (s.drvStopReq, s.drvTick, s.drvSetupDone, s.busConnected, nodeAt s 0)) =
      some (false, 0, false, [], none) := by decide

/-- The launch of program P1; V132. -/
theorem test_setup :
    after (exec (.setup 1 .refuse [⟨1, [2], [frameA 0 100]⟩, ⟨2, [], []⟩]) State.reset)
        (fun s => (s.busConnected, s.events, s.cfgErrorLimit, nodeAt s 1)) =
      some ([0, 1], [⟨0, .nodeConnected 1⟩, ⟨0, .nodeConnected 2⟩], 1, some (node 2 none [])) ∧
    refusal (exec (.setup 0 .refuse []) State.reset) = some .badErrorLimit := by decide

/-- V130, V133. -/
theorem test_setup_refusals :
    refusal (exec (.setup 1 .refuse []) twoNodes) = some .setupTwice ∧
      refusal (exec (.setup 1 .refuse [⟨1, [], []⟩, ⟨1, [], []⟩]) State.reset) = some .duplicateNodeId := by decide

/-- V120: a tick at which nobody is eligible; V131. -/
theorem test_step :
    after (exec .step (bus [node 1 (some (frameA 2 96)) [2]])) (fun s => (s.busTick, s.drvTick, s.events)) =
        some (0, 1, [⟨0, .roundReset⟩]) ∧
      refusal (exec .step State.reset) = some .notSetUp := by decide +kernel

/-- V122 and V134: `RUN` returns at once. -/
theorem test_run_returns :
    after (exec .run { twoNodes with drvPauseReq := true }) (fun s => (s.drvTick, s.drvRunning, s.events)) =
        some (0, false, []) ∧
      after (exec .run (bus [])) (fun s => (s.drvTick, s.drvRunning)) = some (0, false) := by decide +kernel

/-- V135: a pause that arrives during the round of a tick takes effect at the next boundary. -/
theorem test_run_pause_arrives :
    after (step { twoNodes with drvRunning := true, arrivals := [⟨true, false⟩] })
        (fun s => (s.drvTick, s.drvPauseReq, s.drvRunning)) = some (0, true, false) := by decide +kernel

/-- V122, V124, V125. -/
theorem test_requests :
    after (exec .pause twoNodes) State.drvPauseReq = some true ∧
      after (exec .stop twoNodes) State.drvStopReq = some true ∧
      after (exec .resume { twoNodes with drvPauseReq := true, drvStopReq := true })
        (fun s => (s.drvPauseReq, s.drvStopReq)) = some (false, true) := by decide

/-- 30_encoding.md R97, R98, 60_exceptions.md R261: the register codes at the ends of their ranges. -/
theorem test_codes :
    statusCode .evicted = 0b100 ∧ phaseCode .roundReset = 0b111 ∧ errorCode .constructionError = 1 ∧
      errorCode .decodeError = 5 := by decide

/-! ## Witnesses: states and operands that meet the hypotheses of the obligations -/

/-- What `DriverInv` asks of the node in one slot. -/
def nodeCheck (s : State) (k : Nat) (n : Node) : Bool :=
  decide ((∀ f ∈ undelivered n, f.wf = true) ∧ (n.next = none → n.pending = [])) &&
    decide ((n.id ∉ n.listeners ∧ ascending n.listeners = true) ∧ (n.status = .evicted ↔ k ∉ s.busConnected)) &&
    decide ((k ∈ s.busConnected → n.transmitErrors < s.cfgErrorLimit) ∧
      (n.status = .evicted → n.transmitErrors = s.cfgErrorLimit)) &&
    decide (∀ k' < s.nodes.length, ∀ n' ∈ nodeAt s k', n.id = n'.id → k = k')

/-- What `DriverInv` asks of the rest of a state after `SETUP`. -/
abbrev busCheck (s : State) : Prop :=
  (s.seqPhase = .idle ∧ busQuiet s = true ∧ s.busOnBus = none) ∧
    ((∀ k ∈ s.busConnected, (nodeAt s k).isSome = true) ∧ s.busConnected.Nodup) ∧
    (s.drvSetupDone = true ∧ 1 ≤ s.cfgErrorLimit ∧ s.busTick ≤ s.drvTick) ∧
    (∀ e ∈ s.events, e.tick ≤ s.busTick) ∧ s.seqBitIndex ≤ 11 ∧ s.seqWonAt ≤ 11

theorem driverInv_of_check {s : State} (hn : ∀ k < s.nodes.length, ∀ n ∈ nodeAt s k, nodeCheck s k n = true)
    (h : busCheck s) : DriverInv s := by
  obtain ⟨⟨hp, hq, hb⟩, ⟨hc, hd⟩, ⟨hs, hl, ht⟩, he, hi⟩ := h
  have node : ∀ k n, nodeAt s k = some n →
      (((∀ f ∈ undelivered n, f.wf = true) ∧ (n.next = none → n.pending = [])) ∧
        ((n.id ∉ n.listeners ∧ ascending n.listeners = true) ∧ (n.status = .evicted ↔ k ∉ s.busConnected))) ∧
      ((k ∈ s.busConnected → n.transmitErrors < s.cfgErrorLimit) ∧
        (n.status = .evicted → n.transmitErrors = s.cfgErrorLimit)) ∧
      ∀ k' < s.nodes.length, ∀ n' ∈ nodeAt s k', n.id = n'.id → k = k' := by
    intro k n hk
    have := nodeAt_forall hn k n hk
    simp only [nodeCheck, Bool.and_eq_true, decide_eq_true_eq] at this
    exact ⟨⟨this.1.1.1, this.1.1.2⟩, this.1.2, this.2⟩
  exact
    { phaseIdle := hp
      nodeFrames := fun k n h => (node k n h).1.1.1
      busFrame := fun f hf => by simp [hb] at hf
      queue := fun k n h => (node k n h).1.1.2
      listeners := fun k n h => (node k n h).1.2.1
      connectedNodes := hc
      connectedNodup := hd
      errorLimit := fun _ => hl
      running := fun _ => hs
      beforeSetup := fun h => by simp [hs] at h
      tickOrder := ht
      eventTicks := he
      indices := hi
      quiet := hq
      idsDistinct := fun k k' n n' h h' heq => (node k n h).2.2 k' (lt_of_nodeAt h') n' h' heq
      evictedIff := fun k n h => (node k n h).1.2.2
      connectedBelow := fun k n h => (node k n h).2.1.1
      evictedAt := fun k n h => (node k n h).2.1.2
      noNodesBeforeSetup := fun h => by simp [hs] at h }

/-- A `RUN` on the bus of program P1 before its next boundary. -/
def looping : State := { twoNodes with drvRunning := true }

theorem looping_driverInv : DriverInv looping := driverInv_of_check (by decide) (by decide)

theorem twoNodes_inv : Inv twoNodes := (driverInv_of_check (by decide) (by decide)).toInv

/-- A bus with an evicted node in slot 1. -/
def evictedBus : State :=
  { bus [node 1 (some (frameA 0 100)) [2], { node 2 none [] with status := .evicted, transmitErrors := 2 }] with
    busConnected := [0] }

theorem evictedBus_driverInv : DriverInv evictedBus := driverInv_of_check (by decide) (by decide)

theorem witness_CommandTableDecodes :
    0x1B ≤ (0x1B : BitVec 5).toNat ∧ 0x1B ≤ (0x1F : BitVec 5).toNat ∧ ¬ 0x1B ≤ (0x1A : BitVec 5).toNat := by decide

theorem witness_DecodeEncodeAgree :
    (Instr.corrupt longFrame 14 7).wf = true ∧ (Instr.nodeInit 3 1 [2, 5] [longFrame]).wf = true := by decide

theorem witness_DecodedOperationReencodes :
    decode 0x1A .none = .ok .resume ∧ decode 0x09 (.nodeNew 3 1 [5, 2, 5] []) = .ok (.nodeInit 3 1 [2, 5] []) := by decide

theorem witness_StepRunsDecodedCommand :
    let s := { twoNodes with commands := [⟨0x18, .none⟩, ⟨0x17, .none⟩] }
    let d := { twoNodes with commands := [⟨0x12, .node 0⟩], hostDirect := true }
    (s.drvRunning = false ∧ s.seqPhase = .idle ∧ s.commands = ⟨0x18, .none⟩ :: [⟨0x17, .none⟩] ∧
      decode 0x18 .none = .ok .pause ∧ Instr.pause.wf = true ∧ nodeLevel .pause = false) ∧
    (d.drvRunning = false ∧ d.seqPhase = .idle ∧ d.commands = ⟨0x12, .node 0⟩ :: [] ∧
      decode 0x12 (.node 0) = .ok (.evict 0) ∧ (Instr.evict 0).wf = true ∧ d.drvSetupDone = true ∧
      d.hostDirect = true) := by decide

theorem witness_StepOtherwise :
    let s := fun c : Command => { twoNodes with commands := [c] }
    let bad : Instr := .encode ⟨0, 5, [], 0⟩
    looping.drvRunning = true ∧ (twoNodes.drvRunning = false ∧ twoNodes.commands = []) ∧
      (∀ c ∈ [⟨0x1B, .none⟩, ⟨0x00, .node 0⟩, Sys2Proof.encode bad, ⟨0x12, .node 0⟩],
        (s c).drvRunning = false ∧ (s c).seqPhase = .idle ∧ (s c).commands = c :: []) ∧
      0x1B ≤ (0x1B : BitVec 5).toNat ∧ decode 0x00 (.node 0) = .error .operandForm ∧
      decode (Sys2Proof.encode bad).op (Sys2Proof.encode bad).args = .ok bad ∧ bad.wf = false ∧
      (decode 0x12 (.node 0) = .ok (.evict 0) ∧ (Instr.evict 0).wf = true ∧ nodeLevel (.evict 0) = true ∧
        twoNodes.drvSetupDone = true ∧ twoNodes.hostDirect = false) := by decide

theorem witness_CrcDetectsEverySingleBitFlip : 4 < hello.length ∧ 7 < 8 ∧ 0 < hello.length ∧ 0 < 8 := by decide

theorem witness_ConstructChecksThenBuilds :
    ((0 : Int) ≤ 0 ∧ (0 : Int) ≤ 2047 ∧ ([0x41] : List Byte) ≠ [] ∧ ([0x41] : List Byte).length ≤ 15) ∧
    ((0 : Int) ≤ 2047 ∧ (2047 : Int) ≤ 2047 ∧ longFrame.data ≠ [] ∧ longFrame.data.length ≤ 15) ∧
    ((-1 : Int) < 0 ∧ (2047 : Int) < 2048) ∧ 15 < (List.replicate 16 (0 : Byte)).length := by decide

/-- Both ends of the range of the number of data bytes, for every statement about a well-formed frame. -/
theorem witness_EncodeFieldPositions : (frameA 0 0).wf = true ∧ longFrame.wf = true := by decide

theorem witness_FrameDecodeInvertsEncode : (frameA 0 2047).wf = true ∧ longFrame.wf = true := by decide

theorem witness_CorruptFlipsTheDrawnBit :
    ((frameA 0 5).wf = true ∧ 0 < (frameA 0 5).data.length ∧ 0 < 8) ∧
      (longFrame.wf = true ∧ 14 < longFrame.data.length ∧ 7 < 8) := by decide

theorem witness_RepairRecomputesCrc : (frameA 0 5).crc = crcSerial (messageBits (frameA 0 5).data) := by decide +kernel

theorem witness_CorruptionLifecycle :
    (0 : Int) ≤ 2047 ∧ (2047 : Int) ≤ 2047 ∧ longFrame.data.length ≤ 15 ∧ 14 < longFrame.data.length ∧ 7 < 8 := by decide

theorem witness_NodeInitWritesFreshRecord :
    15 < State.reset.nodes.length ∧ nodeAt State.reset 15 = none ∧ 3 ∉ ([2] : List Nat) ∧ 3 ∈ ([3] : List Nat) := by decide

theorem witness_EnterOperationsWriteStatusOnly : nodeAt twoNodes 1 = some (node 2 (some (frameA 0 200)) []) := by decide

theorem witness_TransmitPublishesHead :
    (nodeAt (sender longFrame) 0 = some { node 1 (some longFrame) [2] with status := .sending }) ∧
      (nodeAt (sender longFrame) 1 = some (node 2 none []) ∧ (node 2 none []).next = none) ∧
      (nodeAt twoNodes 0 = some (node 1 (some (frameA 0 100)) [2]) ∧
        (node 1 (some (frameA 0 100)) [2]).status ≠ .sending) := by decide

theorem witness_ReceiveValidatesOnBus :
    (nodeAt { twoNodes with busOnBus := some (frameA 0 5) } 1).isSome = true ∧
      crcSerial (messageBits (frameA 0 5).data) = (frameA 0 5).crc ∧
      (nodeAt { twoNodes with busOnBus := some longFrame } 1).isSome = true ∧
      crcSerial (messageBits longFrame.data) ≠ longFrame.crc ∧ twoNodes.busOnBus = none := by decide +kernel

theorem witness_AckSuccessDequeues :
    (nodeAt twoNodes 0 = some (node 1 (some (frameA 0 100)) [2]) ∧ (node 1 (some (frameA 0 100)) [2]).next ≠ none) ∧
      nodeAt (sender longFrame) 1 = some (node 2 none []) ∧ (node 2 none []).next = none := by decide

theorem witness_AckFailureCountsAndRepairs :
    (nodeAt twoNodes 0 = some (node 1 (some (frameA 0 100)) [2]) ∧
        (node 1 (some (frameA 0 100)) [2]).next = some (frameA 0 100) ∧
        (frameA 0 100).crc = crcSerial (messageBits (frameA 0 100).data) ∧ (frameA 0 100).time ≤ 0) ∧
      nodeAt (sender longFrame) 1 = some (node 2 none []) ∧ (node 2 none []).next = none := by decide +kernel

theorem witness_EvictDisconnects : nodeAt (sender longFrame) 0 = some { node 1 (some longFrame) [2] with status := .sending } := by
  decide

theorem witness_NodeOperandNamesANode :
    nodeAt State.reset 0 = none ∧ nodeAt State.reset 16 = none ∧ State.reset.nodes.length ≤ 16 ∧
      (nodeAt twoNodes 1).isSome = true ∧
      (State.reset.drvSetupDone = false ∧
        (((List.range 17).map fun i => NodeSpec.mk i [] []).map NodeSpec.id).Nodup ∧
        State.reset.nodes.length < ((List.range 17).map fun i => NodeSpec.mk i [] []).length) := by decide

/-- A `NODE_INIT` of slot 1 before `SETUP`: slot 0 is free, slot 1 occupied. -/
theorem witness_NodeOperandNamesANode_occupied :
    let s := { State.reset with nodes := [none, some (node 2 none [])] }
    let specs := [NodeSpec.mk 1 [2] [], NodeSpec.mk 2 [] []]
    s.drvSetupDone = false ∧ (specs.map NodeSpec.id).Nodup ∧ specs.length ≤ s.nodes.length ∧ 1 ≤ 1 ∧ 1 < specs.length ∧
      nodeAt s 1 = some (node 2 none []) ∧ ∀ i < 1, nodeAt s i = none ∧ ∀ m ∈ specs[i]?, m.id ∉ m.listeners := by decide

theorem witness_LowestPriorityValueWins :
    busQuiet twoNodes = true ∧ twoNodes.busConnected.Nodup ∧ DistinctHeads twoNodes ∧ eligibleSlots twoNodes ≠ [] := by
  decide

/-- Three contenders under `last_dominant`: the two of priority 300 tie, and slot 1 is selected. -/
def tied : State :=
  { bus [node 1 (some (frameA 0 300)) [2], node 2 (some (frameA 0 300)) [1], node 3 (some (frameA 0 301)) []] with
    cfgDupIdPolicy := .lastDominant }

theorem witness_ArbitrationSelectsWinner :
    (busQuiet twoNodes = true ∧ twoNodes.busConnected.Nodup ∧ IsSelected twoNodes 0) ∧
      (busQuiet tied = true ∧ tied.busConnected.Nodup ∧ IsSelected tied 1 ∧ ¬ IsWinner tied 1) := by decide

theorem witness_ArbitrationEventOrder :
    (busQuiet twoNodes = true ∧ twoNodes.busConnected.Nodup ∧ IsSelected twoNodes 0 ∧
      nodeAt twoNodes 0 = some (node 1 (some (frameA 0 100)) [2])) ∧
    (IsSelected tied 1 ∧ nodeAt tied 1 = some (node 2 (some (frameA 0 300)) [1])) := by decide

theorem witness_NobodyEligible :
    let s := bus [node 1 (some (frameA 1 96)) [2]]
    eligibleSlots s = [] ∧ busQuiet s = true ∧ s.drvSetupDone = true ∧ s.seqPhase = .idle := by decide

theorem witness_DuplicateIdentifiers :
    (busQuiet (twins 0 .refuse) = true ∧ (twins 0 .refuse).busConnected.Nodup ∧ TiedSmallest (twins 0 .refuse) 0 1 ∧
        (twins 0 .refuse).cfgDupIdPolicy = .refuse) ∧
      (busQuiet tied = true ∧ tied.busConnected.Nodup ∧ TiedSmallest tied 0 1 ∧ headPriority tied 0 ≠ 2047) ∧
      (TiedSmallest (twins 2047 .lastDominant) 0 1 ∧ headPriority (twins 2047 .lastDominant) 0 = 2047) := by decide

theorem witness_RoundRefusals :
    (∃ k ∈ (sender longFrame).busConnected, statusIs (sender longFrame) .idle k = false) ∧
      { twoNodes with busOnBus := some longFrame }.busOnBus ≠ none ∧
      { twoNodes with seqPhase := .outcome }.seqPhase ≠ .idle ∧ (sender longFrame).drvSetupDone = true ∧
      State.reset.drvSetupDone = false ∧ runReturns (sender longFrame) = false ∧
      (RoundReady (twins 300 .refuse) ∧ (twins 300 .refuse).cfgDupIdPolicy = .refuse ∧
        TiedSmallest (twins 300 .refuse) 0 1 ∧
        TiedSmallest { twins 300 .refuse with busTick := (twins 300 .refuse).drvTick } 0 1 ∧
        (twins 300 .refuse).drvPauseReq = false ∧ (twins 300 .refuse).drvStopReq = false) := by decide

/-- The hypotheses that the statements about a round with a winner share. -/
abbrev RoundMeets (s : State) (w : Nat) (n : Node) (f : Frame) : Prop :=
  (RoundReady s ∧ IsSelected s w) ∧ nodeAt s w = some n ∧ n.next = some f ∧ n.id ∉ n.listeners

theorem twoNodes_meet : RoundMeets twoNodes 0 (node 1 (some (frameA 0 100)) [2]) (frameA 0 100) := by decide

theorem tied_meet : RoundMeets tied 1 (node 2 (some (frameA 0 300)) [1]) (frameA 0 300) := by decide

/-- A sender of an invalid frame with one listener. -/
def invalidBus (limit : Nat) : State :=
  { bus [node 1 (some longFrame) [2], node 2 none []] with cfgErrorLimit := limit }

theorem witness_RoundDeliversValidFrame :
    (RoundMeets twoNodes 0 (node 1 (some (frameA 0 100)) [2]) (frameA 0 100) ∧ 0 < twoNodes.cfgErrorLimit ∧
      frameValid (frameA 0 100) = true ∧ activeListeners twoNodes 0 ≠ []) ∧
    (RoundMeets tied 1 (node 2 (some (frameA 0 300)) [1]) (frameA 0 300) ∧ 0 < tied.cfgErrorLimit ∧
      frameValid (frameA 0 300) = true ∧ activeListeners tied 1 ≠ []) :=
  ⟨⟨twoNodes_meet, by decide +kernel⟩, tied_meet, by decide +kernel⟩

/-- An invalid frame with a listener, below the limit and at it; a valid frame without a listener. -/
theorem witness_RoundFailureCountsAndEvicts :
    (∀ limit ∈ [1, 2], RoundMeets (invalidBus limit) 0 (node 1 (some longFrame) [2]) longFrame) ∧
      frameValid longFrame = false ∧ ((invalidBus 1).cfgErrorLimit ≤ 0 + 1 ∧ ¬ (invalidBus 2).cfgErrorLimit ≤ 0 + 1) ∧
      (RoundMeets (bus [node 2 (some (frameA 0 200)) []]) 0 (node 2 (some (frameA 0 200)) []) (frameA 0 200) ∧
        activeListeners (bus [node 2 (some (frameA 0 200)) []]) 0 = []) :=
  ⟨by decide, by decide +kernel, by decide, by decide⟩

/-- A successful round, a failed one, and one that a tied contender wins. -/
theorem witness_RoundEmitsCanonicalEvents :
    (RoundMeets twoNodes 0 (node 1 (some (frameA 0 100)) [2]) (frameA 0 100) ∧ 0 < twoNodes.cfgErrorLimit) ∧
      (RoundMeets (invalidBus 1) 0 (node 1 (some longFrame) [2]) longFrame ∧ 0 < (invalidBus 1).cfgErrorLimit ∧
        frameValid longFrame = false) ∧
      (RoundMeets tied 1 (node 2 (some (frameA 0 300)) [1]) (frameA 0 300) ∧ 0 < tied.cfgErrorLimit ∧
        ¬ IsWinner tied 1) :=
  ⟨⟨twoNodes_meet, by decide⟩, ⟨by decide, by decide, by decide +kernel⟩, tied_meet, by decide⟩

theorem witness_BusCarriesFrameWithoutDlc :
    (IsSelected twoNodes 0 ∧ headFrame twoNodes 0 = some (frameA 0 100)) ∧
      (IsSelected tied 1 ∧ headFrame tied 1 = some (frameA 0 300)) := by decide

theorem witness_RoundIsTotal :
    (RoundReady twoNodes ∧ NoSelfListeners twoNodes ∧ DistinctHeads twoNodes) ∧
      (RoundReady (twins 2047 .lastDominant) ∧ NoSelfListeners (twins 2047 .lastDominant) ∧
        (twins 2047 .lastDominant).cfgDupIdPolicy = .lastDominant) := by decide

theorem witness_ResetGivesResetValues : twoNodes.seqPhase = .idle := by decide

theorem witness_SetupLaunches :
    (Inv twoNodes ∧ twoNodes.drvSetupDone = true) ∧ DriverInv twoNodes ∧
      (State.reset.drvSetupDone = false ∧ ¬ ([1, 1] : List Nat).Nodup ∧ ([1, 2] : List Nat).Nodup ∧
        2 ≤ State.reset.nodes.length ∧ 1 ≤ 1 ∧ (∀ j < 2, nodeAt State.reset j = none) ∧
        1 ∈ ([1] : List Nat) ∧ 1 ∉ ([2] : List Nat)) :=
  ⟨⟨twoNodes_inv, by decide⟩, driverInv_of_check (by decide) (by decide), by decide⟩

/-- The invariant's hypothesis of `SetupLaunches` at a state before `SETUP`. -/
theorem witness_SetupLaunches_beforeSetup :
    ∃ s : State, Inv s ∧ s.drvSetupDone = false ∧ 2 ≤ s.nodes.length ∧ ∀ j < 2, nodeAt s j = none := by
  have none_at : ∀ k n, nodeAt { State.reset with nodes := [none, none] } k ≠ some n := by
    intro k n h
    rw [nodeAt_eq_some_iff] at h
    rcases k with _ | _ | k <;> simp at h
  refine ⟨{ State.reset with nodes := [none, none] }, ?_, rfl, by decide, by decide⟩
  exact
    { phaseIdle := rfl
      nodeFrames := fun k n h => absurd h (none_at k n)
      busFrame := fun f hf => by cases hf
      queue := fun k n h => absurd h (none_at k n)
      listeners := fun k n h => absurd h (none_at k n)
      connectedNodes := by decide
      connectedNodup := by decide
      errorLimit := by decide
      running := by decide
      beforeSetup := by decide
      tickOrder := by decide
      eventTicks := by decide
      indices := by decide }

theorem witness_StepRunsOneRound :
    State.reset.drvSetupDone = false ∧
      (after (exec .round { twoNodes with busTick := twoNodes.drvTick }) State.result).isSome = true ∧
      (RoundReady twoNodes ∧ NoSelfListeners twoNodes ∧ DistinctHeads { twoNodes with busTick := twoNodes.drvTick }) ∧
      (RoundReady (twins 2047 .lastDominant) ∧ NoSelfListeners (twins 2047 .lastDominant) ∧
        (twins 2047 .lastDominant).cfgDupIdPolicy = .lastDominant) := by decide +kernel

theorem witness_RunLoopsOverStep :
    State.reset.drvSetupDone = false ∧
      (twoNodes.drvSetupDone = true ∧ { twoNodes with drvStopReq := true }.drvStopReq = true ∧
        { twoNodes with drvPauseReq := true }.drvPauseReq = true) ∧
      (∀ k ∈ (bus [node 1 none []]).busConnected, ∀ n ∈ nodeAt (bus [node 1 none []]) k, n.next = none) ∧
      (twoNodes.drvStopReq = false ∧ twoNodes.drvPauseReq = false ∧ 0 ∈ twoNodes.busConnected ∧
        nodeAt twoNodes 0 = some (node 1 (some (frameA 0 100)) [2]) ∧
        (after (exec .step twoNodes) State.result).isSome = true) ∧
      (RoundReady twoNodes ∧ NoSelfListeners twoNodes ∧ DistinctHeads { twoNodes with busTick := twoNodes.drvTick }) := by
  decide +kernel

theorem witness_StopIsSticky :
    (Instr.resume ≠ .reset ∧ (after (exec .resume { twoNodes with drvStopReq := true }) State.result).isSome = true) ∧
      twoNodes.drvSetupDone = true ∧ (after (exec .step twoNodes) State.result).isSome = true := by decide +kernel

theorem witness_RunTerminates :
    DriverInv looping ∧ looping.drvRunning = true ∧ DistinctFrames looping ∧ looping.drvPauseReq = false ∧
      looping.drvStopReq = false ∧ looping.arrivals = [] :=
  ⟨looping_driverInv, by decide⟩

theorem witness_TwoRecessiveHeadsBlockForever :
    ∃ s : State, DriverInv s ∧ s.drvRunning = true ∧ s.cfgDupIdPolicy = .lastDominant ∧ s.drvPauseReq = false ∧
      s.drvStopReq = false ∧ s.arrivals = [] ∧ 0 ∈ s.busConnected ∧ 1 ∈ s.busConnected ∧
      headFrame s 0 = some (frameA 0 2047) ∧ headFrame s 1 = some (frameA 0 2047) ∧ (frameA 0 2047).time ≤ s.drvTick ∧
      ∀ j ∈ s.busConnected, ∀ f ∈ headFrame s j, f.priority.toNat = 2047 :=
  ⟨{ twins 2047 .lastDominant with drvRunning := true }, driverInv_of_check (by decide) (by decide), by decide⟩

theorem witness_EveryStepKeepsInvariant : Inv looping ∧ ∃ t, step looping = .next t :=
  ⟨looping_driverInv.toInv, _, rfl⟩

theorem witness_DriverStepKeepsDriverInvariant :
    DriverInv looping ∧ (looping.drvSetupDone = true ∧ looping.hostDirect = false) ∧
      (∀ i u, fetch looping = .issue i u → nodeLevel i = false) ∧ ∃ t, step looping = .next t := by
  refine ⟨looping_driverInv, by decide, ?_, _, rfl⟩
  intro i u h
  obtain ⟨rfl, -⟩ : Instr.run = i ∧ acceptArrival looping = u := by simpa [fetch, looping] using h
  rfl

theorem witness_CountersNeverDecrease :
    Instr.ackFailure 0 ≠ .reset ∧ (∃ t, exec (.ackFailure 0) twoNodes = .next t) ∧
      nodeAt twoNodes 0 = some (node 1 (some (frameA 0 100)) [2]) :=
  ⟨by decide, ⟨_, rfl⟩, by decide⟩

theorem witness_QueuesOnlyShrinkFromTheFront :
    Instr.ackSuccess 0 ≠ .reset ∧ ∃ t, exec (.ackSuccess 0) twoNodes = .next t ∧
      nodeAt twoNodes 0 = some (node 1 (some (frameA 0 100)) [2]) ∧ nodeAt t 0 = some (node 1 none [2]) :=
  ⟨by decide, _, rfl, by decide, by decide⟩

theorem witness_DisconnectedNodeIsFrozen :
    Instr.round ≠ .reset ∧ (after (exec .round evictedBus) State.result).isSome = true ∧
      (nodeAt evictedBus 1).isSome = true ∧ 1 ∉ evictedBus.busConnected ∧ nodeLevel .step = false ∧
      (after (exec .step evictedBus) State.result).isSome = true := by decide +kernel

theorem witness_EventStreamOnlyGrows : Instr.round ≠ .reset ∧ ∃ t, exec .round twoNodes = .next t :=
  ⟨by decide, _, rfl⟩

theorem witness_SharedRegistersHaveOwners :
    ∃ t, exec (.evict 0) twoNodes = .next t ∧ t.busConnected ≠ twoNodes.busConnected :=
  ⟨_, rfl, by decide⟩

theorem witness_OnlyRoundsTouchTheBus :
    looping.drvSetupDone = true ∧ looping.hostDirect = false ∧ ∃ t, step looping = .next t ∧ t.nodes ≠ looping.nodes :=
  ⟨by decide, by decide, _, rfl, by decide +kernel⟩

theorem witness_ReferencePayloadIsAccepted :
    referencePayload hello = true ∧ referencePayload (hello ++ hello) = true ∧
      referencePayload (hello ++ hello ++ [0x41]) = false ∧ 4 < hello.length := by decide

end Sys2Proof.Tests
end

section
/-!
The family of 10_state.md: the identifier and the stuff bit of a frame (R23, R24) and the state after reset (R50).
The lemmas about `bin` say where the characters of a numeral stand and which numerals are equal.
-/

namespace Sys2Proof.Machine

/-! ## Numerals -/

/-- Character `i` of a numeral is the bit of weight `2 ^ (n - 1 - i)` (R11). -/
theorem getElem?_bin {n i : Nat} (v : Nat) (h : i < n) : (bin n v)[i]? = some (v.testBit (n - 1 - i)) := by
  induction n generalizing i with
  | zero => omega
  | succ n ih =>
    cases i with
    | zero => rfl
    | succ i =>
      rw [bin, List.getElem?_cons_succ, ih (Nat.lt_of_succ_lt_succ h)]
      congr 2
      omega

/-- The last `n` characters of a numeral are the numeral of `n` characters. -/
theorem drop_bin (m n v : Nat) : (bin (m + n) v).drop m = bin n v := by
  induction m with
  | zero => simp
  | succ m ih => rw [Nat.succ_add, bin, List.drop_succ_cons, ih]

/-- `drop_bin` for the field at the end of a numeral. -/
theorem field_bin_end (m n v : Nat) : field (bin (m + n) v) m n = bin n v := by
  rw [field, drop_bin, List.take_of_length_le (length_bin n v).le]

/-- A numeral of `n` characters tells a number up to multiples of `2 ^ n`. -/
theorem bin_eq_bin_iff {n v w : Nat} : bin n v = bin n w ↔ v % 2 ^ n = w % 2 ^ n := by
  constructor
  · intro h
    rw [← val_bin n v, h, val_bin]
  · intro h
    rw [← bin_mod n v, h, bin_mod]

/-! ## The identifier (R23) and the stuff bit (R24) -/

/-- The value of the identifier is the priority: 11 characters hold all of it (R23). -/
theorem val_arbitrationId (f : Frame) : val (arbitrationId f) = f.priority.toNat := by
  rw [arbitrationId, val_bin, Nat.mod_eq_of_lt f.priority.isLt]

/-- The identifier ends in the numeral of the priority's low five bits (R24). -/
theorem field_arbitrationId_end (f : Frame) : field (arbitrationId f) 6 5 = bin 5 f.priority.toNat :=
  field_bin_end 6 5 _

/-- The identifier ends in five zeros exactly if the priority is a multiple of 32 (R24). -/
theorem arbitrationId_ends_in_zeros_iff (f : Frame) :
    field (arbitrationId f) 6 5 = List.replicate 5 false ↔ f.priority.toNat % 32 = 0 := by
  rw [field_arbitrationId_end, show List.replicate 5 false = bin 5 0 from rfl]
  exact bin_eq_bin_iff

/-- The identifier ends in five ones exactly if the priority is 31 modulo 32 (R24). -/
theorem arbitrationId_ends_in_ones_iff (f : Frame) :
    field (arbitrationId f) 6 5 = List.replicate 5 true ↔ f.priority.toNat % 32 = 31 := by
  rw [field_arbitrationId_end, show List.replicate 5 true = bin 5 31 from rfl]
  exact bin_eq_bin_iff

/-- The stuff bit as a function of the priority, the second reading of R24. -/
theorem stuffBit_eq (f : Frame) :
    stuffBit f =
      if f.priority.toNat % 32 = 0 then [true] else if f.priority.toNat % 32 = 31 then [false] else [] := by
  simp only [← arbitrationId_ends_in_zeros_iff, ← arbitrationId_ends_in_ones_iff]
  rfl

theorem stuffBit_eq_one_iff (f : Frame) : stuffBit f = [true] ↔ f.priority.toNat % 32 = 0 := by
  rw [stuffBit_eq]
  split_ifs with h0 h31 <;> simp [h0]

theorem stuffBit_eq_zero_iff (f : Frame) : stuffBit f = [false] ↔ f.priority.toNat % 32 = 31 := by
  rw [stuffBit_eq]
  split_ifs with h0 h31
  · simp [h0]
  · simp [h31]
  · simp [h31]

theorem stuffBit_eq_empty_iff (f : Frame) :
    stuffBit f = [] ↔ f.priority.toNat % 32 ≠ 0 ∧ f.priority.toNat % 32 ≠ 31 := by
  rw [stuffBit_eq]
  split_ifs with h0 h31
  · simp [h0]
  · simp [h31]
  · simp [h0, h31]

/-! ## The state after reset (R50) -/

/-- The state after reset holds the values of R50, whatever the number of slots. -/
theorem resetValues_resetOf (n : Nat) : ResetValues (State.resetOf n) := by
  have no_node : ∀ o ∈ (State.resetOf n).nodes, o = none := fun _ ho => List.eq_of_mem_replicate ho
  exact ⟨no_node, rfl, rfl, rfl, rfl, rfl, rfl, rfl, rfl, rfl, rfl, rfl, rfl, rfl⟩

@[simp] theorem length_nodes_resetOf (n : Nat) : (State.resetOf n).nodes.length = n := List.length_replicate

/-- What RESET does: between operations it leaves the reset state of as many slots, with free values in the
configuration (log entry 3) and the host's ports and strap as they were (log entries 4 and 10). -/
theorem execReset_eq_next_iff {s t : State} :
    execReset s = .next t ↔
      s.seqPhase = .idle ∧
        t =
          { State.resetOf s.nodes.length with
            cfgErrorLimit := Config.freeErrorLimit s.freeCount
            cfgDupIdPolicy := Config.freeDupIdPolicy s.freeCount
            commands := s.commands
            arrivals := s.arrivals
            hostDirect := s.hostDirect
            freeCount := s.freeCount + 1 } := by
  unfold execReset
  by_cases h : s.seqPhase = .idle <;> simp [h, eq_comm]

/-! ## The obligations -/

/-- Settles O11: the characters of the identifier are those of an 11-character numeral, and the priority fits in it. -/
theorem identifierIsPriorityInBinary : Obligations.IdentifierIsPriorityInBinary := by
  intro f
  exact ⟨length_arbitrationId f, val_arbitrationId f, fun _ hi => getElem?_bin _ hi⟩

/-- Settles O12: the last five identifier bits are the numeral of the priority modulo 32, and the stuff bit is read off
that remainder. -/
theorem stuffBitFollowsFiveEqualBits : Obligations.StuffBitFollowsFiveEqualBits := by
  intro f
  have ends_in_zeros := (stuffBit_eq_one_iff f).trans (arbitrationId_ends_in_zeros_iff f).symm
  have ends_in_ones := (stuffBit_eq_zero_iff f).trans (arbitrationId_ends_in_ones_iff f).symm
  exact ⟨ends_in_zeros, stuffBit_eq_one_iff f, ends_in_ones, stuffBit_eq_zero_iff f, stuffBit_eq_empty_iff f⟩

/-- Settles O39: RESET ends in the reset state of the slots there are, up to fields to which R50 gives no value. -/
theorem resetGivesResetValues : Obligations.ResetGivesResetValues := by
  refine ⟨fun n => ⟨resetValues_resetOf n, length_nodes_resetOf n⟩, resetValues_resetOf _, fun s hidle => ?_⟩
  exact ⟨_, execReset_eq_next_iff.mpr ⟨hidle, rfl⟩, resetValues_resetOf _, length_nodes_resetOf _,
    rfl, rfl, rfl, rfl, rfl⟩

end Sys2Proof.Machine
end

section
/-!
The family of 20_memory.md: who touches the bus and the node records after SETUP (R68, R298).
The operations fall into three groups: the node-level commands, which the fetch then refuses; RESET, SETUP, STEP and
RUN; and the rest, which write the result and the request flags only. SETUP itself is refused a second time.
-/

namespace Sys2Proof.Machine

section Steps

variable {s t u : State} {i : Instr}

/-! ## The fetch -/

/-- What the fetch issues (R249): the looping RUN after its arrivals, or the next command of a host that may issue it. -/
theorem fetch_eq_issue_iff :
    fetch s = .issue i u ↔
      (s.drvRunning = true ∧ i = .run ∧ u = acceptArrival s) ∨
        (s.drvRunning = false ∧ s.seqPhase = .idle ∧ isDirect i s = false ∧
          ∃ c rest, s.commands = c :: rest ∧ readCommand c = .ok i ∧ u = { s with commands := rest }) := by
  constructor
  · intro h
    unfold fetch at h
    split at h
    next hrun =>
      cases h
      exact .inl ⟨hrun, rfl, rfl⟩
    next hrun =>
      split at h
      · simp at h
      next c rest hc =>
        split_ifs at h with hphase
        split at h
        next hread =>
          split_ifs at h with hdirect
          cases h
          exact .inr ⟨by simpa using hrun, hphase, by simpa using hdirect, c, rest, hc, hread, rfl⟩
        · simp at h
  · rintro (⟨hrun, rfl, rfl⟩ | ⟨hrun, hphase, hdirect, c, rest, hc, hread, rfl⟩)
    · simp [fetch, hrun]
    · simp [fetch, hrun, hc, hphase, hread, hdirect]

/-- A step that answers next keeps the state of a quiescent block or executes the operation the fetch issues (R66). -/
theorem step_eq_next_iff_fetch :
    step s = .next t ↔ (fetch s = .quiescent ∧ t = s) ∨ ∃ i u, fetch s = .issue i u ∧ exec i u = .next t := by
  unfold step
  cases fetch s <;> simp [eq_comm]

/-! ## The operations that leave the bus and the nodes alone -/

/-- CONSTRUCT writes its result and nothing else, an error included (R131, R262). -/
theorem execConstruct_eq_next {time : Nat} {data : List Byte} {priority : Int}
    (h : execConstruct time data priority s = .next t) : ∃ r, t = setResult s r := by
  unfold execConstruct at h
  split_ifs at h
  · exact ⟨_, by simpa [takeError] using h.symm⟩
  · exact ⟨_, by simpa [takeError] using h.symm⟩
  · exact ⟨_, by simpa using h.symm⟩

/-- DECODE writes its result and nothing else, an error included (R138, R266). -/
theorem execDecode_eq_next {bits : Bits} (h : execDecode bits s = .next t) : ∃ r, t = setResult s r := by
  unfold execDecode at h
  split at h
  · exact ⟨_, by simpa using h.symm⟩
  · exact ⟨_, by simpa [takeError] using h.symm⟩

/-- SETUP answers next only before the first SETUP (R241). -/
theorem not_setupDone_of_exec_setup {limit : Nat} {policy : DupIdPolicy} {specs : List NodeSpec}
    (h : exec (.setup limit policy specs) s = .next t) : ¬ s.drvSetupDone = true := by
  intro hdone
  simp [exec, execSetup, hdone] at h

/-- What an operation outside the node-level commands can do: RESET, SETUP, STEP and RUN reach the whole state, every
other one writes the result and the request flags only (R54, R245 to R247). -/
theorem exec_eq_next_of_not_nodeLevel (hlevel : nodeLevel i = false) (h : exec i s = .next t) :
    (i = .reset ∨ i = .step ∨ i = .run) ∨ (∃ limit policy specs, i = .setup limit policy specs) ∨
      ∃ r p q, t = { s with result := r, drvPauseReq := p, drvStopReq := q } := by
  have of_result :
      (∃ r, t = setResult s r) → ∃ r p q, t = { s with result := r, drvPauseReq := p, drvStopReq := q } := by
    rintro ⟨r, rfl⟩
    exact ⟨r, _, _, rfl⟩
  cases i with
  | reset => exact .inl (.inl rfl)
  | step => exact .inl (.inr (.inl rfl))
  | run => exact .inl (.inr (.inr rfl))
  | setup limit policy specs => exact .inr (.inl ⟨limit, policy, specs, rfl⟩)
  | construct => exact .inr (.inr (of_result (execConstruct_eq_next h)))
  | decode => exact .inr (.inr (of_result (execDecode_eq_next h)))
  | crc16 | crcByte | encode | corrupt | repair | isvalid | pause | stop | resume =>
    cases h
    exact .inr (.inr ⟨_, _, _, rfl⟩)
  | nodeInit | enterArbitration | enterIdle | enterSending | enterReceiving | transmit | receive | ackSuccess
  | ackFailure | evict | arbitrate | round => simp [nodeLevel] at hlevel

end Steps

/-! ## The obligation -/

/-- Settles O56: after SETUP the strap keeps the node-level commands from being issued, and of the other operations
only RESET, STEP and RUN answer next and write more than the result, the requests and the host's queue. -/
theorem onlyRoundsTouchTheBus : Obligations.OnlyRoundsTouchTheBus := by
  intro s t hsetup hstrap hstep hchange
  obtain ⟨-, rfl⟩ | ⟨i, u, hfetch, hexec⟩ := step_eq_next_iff_fetch.mp hstep
  · simp at hchange
  · refine ⟨i, u, hfetch, ?_⟩
    obtain ⟨-, rfl, -⟩ | ⟨-, -, hdirect, c, rest, -, -, rfl⟩ := fetch_eq_issue_iff.mp hfetch
    · exact .inr (.inr rfl)
    · have hlevel := nodeLevel_of_not_direct hdirect hsetup hstrap
      obtain htouch | ⟨limit, policy, specs, rfl⟩ | ⟨r, p, q, rfl⟩ := exec_eq_next_of_not_nodeLevel hlevel hexec
      · exact htouch
      · exact (not_setupDone_of_exec_setup hexec hsetup).elim
      · simp at hchange

end Sys2Proof.Machine
end

section
/-!
The family of 40_crc16.md: the register of the CRC-16 generator, byte by byte (R113), bit by bit (R114) and as a
polynomial over GF(2) (R115), and the detection of a single flipped bit (R117).
-/

namespace Sys2Proof.Machine

/-! ## The two operations (R112, R113) -/

theorem exec_crc16 (bytes : List Byte) (s : State) :
    exec (.crc16 bytes) s = .next { s with result := .word (crc16 bytes) } := rfl

theorem exec_crcByte (crc : CrcWord) (b : Byte) (s : State) :
    exec (.crcByte crc b) s = .next { s with result := .word (crcByte crc b) } := rfl

/-! ## The bit-serial register (R114)

CRC_BYTE has all the bits of the byte in the register before the first shift, the bit-serial register takes in one at
each shift. The proof follows the bits that are in the register's top and not yet taken in.
-/

/-- The register word whose highest `n` bits are the lowest `n` of the number; with `n = 8` it is the byte where R113
XORs it in. -/
def topBits (n v : Nat) : CrcWord := BitVec.ofNat Config.crcWidth v <<< (Config.crcWidth - n)

@[simp] theorem topBits_zero (v : Nat) : topBits 0 v = 0 := by simp [topBits]

theorem msb_topBits {n v : Nat} (h : n < Config.crcWidth) : (topBits (n + 1) v).msb = v.testBit n := by
  have hplace : Config.crcWidth - 1 - (Config.crcWidth - (n + 1)) = n := by omega
  have hshift : Config.crcWidth - (n + 1) < Config.crcWidth := by omega
  rw [topBits, BitVec.msb_shiftLeft, BitVec.getMsbD_eq_getLsbD, hplace, BitVec.getLsbD_ofNat]
  simp only [hshift, h, decide_true, Bool.true_and]

theorem topBits_shiftLeft_one {n v : Nat} (h : n < Config.crcWidth) : topBits (n + 1) v <<< 1 = topBits n v := by
  rw [topBits, topBits, ← BitVec.shiftLeft_add]
  congr 1
  omega

/-- A shift takes in the bit that stands at the register's top and moves the others up. -/
theorem crcShift_xor_topBits {n v : Nat} (r : CrcWord) (h : n < Config.crcWidth) :
    crcShift (r ^^^ topBits (n + 1) v) = crcSerialBit r (v.testBit n) ^^^ topBits n v := by
  rw [crcShift, crcSerialBit, BitVec.msb_xor, msb_topBits h, BitVec.shiftLeft_xor_distrib, topBits_shiftLeft_one h]
  split
  · ac_rfl
  · rfl

/-- `n` shifts with `n` bits at the register's top are the bit-serial register run over these bits. -/
theorem crcShifts_xor_topBits {n : Nat} (v : Nat) (r : CrcWord) (h : n ≤ Config.crcWidth) :
    crcShifts n (r ^^^ topBits n v) = (bin n v).foldl crcSerialBit r := by
  induction n generalizing r with
  | zero => simp [crcShifts, bin]
  | succ n ih => rw [crcShifts, crcShift_xor_topBits r h, ih _ (Nat.le_of_succ_le h), bin, List.foldl_cons]

theorem crcByte_eq_serial (crc : CrcWord) (b : Byte) : crcByte crc b = (bin 8 b.toNat).foldl crcSerialBit crc := by
  have hbyte : b.setWidth Config.crcWidth <<< 8 = topBits 8 b.toNat := by
    rw [topBits, BitVec.ofNat_toNat]
    rfl
  rw [crcByte, hbyte, crcShifts_xor_topBits _ _ (by decide)]

theorem crc16_eq_crcSerial (bytes : List Byte) : crc16 bytes = crcSerial (messageBits bytes) := by
  rw [crc16, crcSerial, messageBits, List.foldl_flatMap, funext₂ crcByte_eq_serial]

theorem length_messageBits (bytes : List Byte) : (messageBits bytes).length = 8 * bytes.length := by
  simp [messageBits, mul_comm]

/-! ## Nothing is lost (R117)

Two registers that differ still differ after a shift, so two CRCs that differ after some byte differ at the end.
-/

/-- Bit 0 of the shifted register is the bit shifted out, since the generator polynomial has the constant term 1. -/
theorem getLsbD_zero_crcShift (r : CrcWord) : (crcShift r).getLsbD 0 = r.msb := by
  unfold crcShift
  split
  next h => simp [h, crcPoly, Config.crcWidth]
  next h => simp [h]

theorem crcShift_injective : Function.Injective crcShift := by
  intro a b h
  have hmsb : a.msb = b.msb := by rw [← getLsbD_zero_crcShift, h, getLsbD_zero_crcShift]
  have hshift : a <<< 1 = b <<< 1 := by
    unfold crcShift at h
    rw [hmsb] at h
    split at h
    · exact (BitVec.xor_left_inj _).mp h
    · exact h
  simp only [BitVec.msb_eq_decide, decide_eq_decide, Config.crcWidth] at hmsb hshift ⊢
  bv_omega

theorem crcShifts_injective (n : Nat) : Function.Injective (crcShifts n) := by
  induction n with
  | zero => exact Function.injective_id
  | succ n ih => exact ih.comp crcShift_injective

theorem crcByte_left_injective (b : Byte) : Function.Injective fun crc => crcByte crc b :=
  fun _ _ h => (BitVec.xor_left_inj _).mp (crcShifts_injective 8 h)

theorem crcByte_right_injective (crc : CrcWord) : Function.Injective (crcByte crc) := by
  intro a b h
  have hhigh : a.setWidth Config.crcWidth <<< 8 = b.setWidth Config.crcWidth <<< 8 :=
    (BitVec.xor_right_inj _).mp (crcShifts_injective 8 h)
  simp only [Config.crcWidth] at hhigh
  bv_omega

theorem foldl_crcByte_injective (bytes : List Byte) : Function.Injective fun crc => bytes.foldl crcByte crc := by
  induction bytes with
  | nil => exact Function.injective_id
  | cons b bytes ih => exact ih.comp (crcByte_left_injective b)

theorem one_shiftLeft_ne_zero : ∀ i < 8, (1 : Byte) <<< i ≠ 0 := by decide

/-! ## Polynomials over GF(2) (R115) -/

section Algebraic

open Polynomial

/-- A bit as a coefficient, 1 or 0. -/
noncomputable def bitTerm (b : Bool) : (ZMod 2)[X] := C (if b then 1 else 0)

/-- The polynomial of a bit string, the first bit the coefficient of highest degree (R115). -/
noncomputable def bitPoly (s : Bits) : (ZMod 2)[X] := s.foldl (fun p b => p * X + bitTerm b) 0

/-- The polynomial of the register. -/
noncomputable def regPoly (r : CrcWord) : (ZMod 2)[X] := bitPoly (bin 16 r.toNat)

/-- `G(x)` of R115. -/
noncomputable def generator : (ZMod 2)[X] := X ^ 16 + X ^ 12 + X ^ 5 + 1

@[simp] theorem bitTerm_false : bitTerm false = 0 := by simp [bitTerm]

@[simp] theorem bitTerm_true : bitTerm true = 1 := by simp [bitTerm]

theorem bitTerm_xor (a b : Bool) : bitTerm (a ^^ b) = bitTerm a + bitTerm b := by
  cases a <;> cases b <;> simp [CharTwo.add_self_eq_zero]

@[simp] theorem bitPoly_nil : bitPoly [] = 0 := rfl

theorem bitPoly_append_singleton (s : Bits) (b : Bool) : bitPoly (s ++ [b]) = bitPoly s * X + bitTerm b := by
  simp [bitPoly]

theorem bitPoly_cons (b : Bool) (s : Bits) : bitPoly (b :: s) = bitTerm b * X ^ s.length + bitPoly s := by
  induction s using List.reverseRecOn with
  | nil => simp [bitPoly]
  | append_singleton s c ih =>
    rw [← List.cons_append, bitPoly_append_singleton, ih, bitPoly_append_singleton, List.length_append,
      List.length_singleton]
    ring

theorem bitPoly_bin_succ (n v : Nat) :
    bitPoly (bin (n + 1) v) = bitTerm (v.testBit n) * X ^ n + bitPoly (bin n v) := by
  rw [bin, bitPoly_cons, length_bin]

/-- XOR of numerals is the sum of their polynomials. -/
theorem bitPoly_bin_xor (n v w : Nat) : bitPoly (bin n (v ^^^ w)) = bitPoly (bin n v) + bitPoly (bin n w) := by
  induction n with
  | zero => simp [bin]
  | succ n ih =>
    simp only [bitPoly_bin_succ, ih, Nat.testBit_xor, bitTerm_xor]
    ring

theorem degree_bitPoly_lt (s : Bits) : (bitPoly s).degree < s.length := by
  induction s with
  | nil => simp
  | cons b s ih =>
    have hlonger : (s.length : WithBot ℕ) < (b :: s).length := Nat.cast_lt.mpr (Nat.lt_succ_self _)
    have hhead : (bitTerm b * X ^ s.length).degree ≤ (s.length : WithBot ℕ) := degree_C_mul_X_pow_le _ _
    rw [bitPoly_cons]
    exact (degree_add_le _ _).trans_lt (max_lt (hhead.trans_lt hlonger) (ih.trans hlonger))

/-- The numeral of an even number is that of its half with a zero after it. -/
theorem bin_two_mul (n v : Nat) : bin (n + 1) (2 * v) = bin n v ++ [false] := by
  induction n with
  | zero => simp [bin]
  | succ n ih => rw [bin, ih, bin, Nat.testBit_succ, Nat.mul_div_cancel_left _ two_pos, List.cons_append]

/-! ## The register's polynomial -/

theorem regPoly_xor (a b : CrcWord) : regPoly (a ^^^ b) = regPoly a + regPoly b := by
  rw [regPoly, BitVec.toNat_xor, bitPoly_bin_xor, regPoly, regPoly]

/-- A left shift multiplies by `x` and discards the term of degree 16 (R118). -/
theorem regPoly_shiftLeft_one (r : CrcWord) : regPoly (r <<< 1) = regPoly r * X + bitTerm r.msb * X ^ 16 := by
  have hshift : bin 16 (r <<< 1).toNat = bin 15 r.toNat ++ [false] := by
    rw [BitVec.toNat_shiftLeft, bin_mod, Nat.shiftLeft_eq, pow_one, mul_comm, bin_two_mul]
  have hmsb : r.toNat.testBit 15 = r.msb := by rw [BitVec.msb_eq_getLsbD_last]; rfl
  have hreg : regPoly r = bitTerm r.msb * X ^ 15 + bitPoly (bin 15 r.toNat) := by
    rw [regPoly, bitPoly_bin_succ, hmsb]
  rw [hreg, regPoly, hshift, bitPoly_append_singleton, bitTerm_false]
  linear_combination -(bitTerm r.msb * X ^ 16) * CharTwo.two_eq_zero (R := (ZMod 2)[X])

/-- The register taps are the generator without its term of degree 16 (R114). -/
theorem regPoly_taps : regPoly (crcPoly.setWidth Config.crcWidth) = X ^ 12 + X ^ 5 + 1 := by
  have htaps : bin 16 (crcPoly.setWidth Config.crcWidth).toNat =
      List.replicate 3 false ++ true :: (List.replicate 6 false ++ true :: (List.replicate 4 false ++ [true])) := by
    decide
  rw [regPoly, htaps]
  simp [bitPoly_cons, add_assoc]

/-- One step of the bit-serial register multiplies by `x`, adds `m x^16`, and takes away the generator as often as the
feedback bit says. -/
theorem regPoly_crcSerialBit (r : CrcWord) (m : Bool) :
    regPoly (crcSerialBit r m) + generator * bitTerm (r.msb ^^ m) = regPoly r * X + bitTerm m * X ^ 16 := by
  have hfeedback : regPoly (crcSerialBit r m) =
      regPoly (r <<< 1) + bitTerm (r.msb ^^ m) * (X ^ 12 + X ^ 5 + 1) := by
    unfold crcSerialBit
    split
    next h => rw [h, bitTerm_true, one_mul, regPoly_xor, regPoly_taps]
    next h => rw [Bool.eq_false_of_not_eq_true h, bitTerm_false, zero_mul, add_zero]
  rw [hfeedback, regPoly_shiftLeft_one, bitTerm_xor, generator]
  linear_combination
    (bitTerm r.msb * X ^ 16 + (bitTerm r.msb + bitTerm m) * (X ^ 12 + X ^ 5 + 1)) *
      CharTwo.two_eq_zero (R := (ZMod 2)[X])

/-- The bit-serial register is the algebraic form of R115 up to a multiple of the generator, from every register. -/
theorem regPoly_foldl_crcSerialBit (s : Bits) (r : CrcWord) :
    ∃ q, regPoly (s.foldl crcSerialBit r) + generator * q = bitPoly s * X ^ 16 + regPoly r * X ^ s.length := by
  induction s generalizing r with
  | nil => exact ⟨0, by simp⟩
  | cons m s ih =>
    obtain ⟨q, hq⟩ := ih (crcSerialBit r m)
    refine ⟨q + bitTerm (r.msb ^^ m) * X ^ s.length, ?_⟩
    rw [List.foldl_cons, bitPoly_cons, List.length_cons]
    linear_combination hq + X ^ s.length * regPoly_crcSerialBit r m

theorem generator_monic : generator.Monic := by
  unfold generator
  monicity!

theorem degree_generator : generator.degree = 16 := by
  unfold generator
  compute_degree!

/-- The bit-serial register from 0xFFFF is the remainder of R115: its polynomial has a degree below the generator's. -/
theorem regPoly_crcSerial (s : Bits) :
    regPoly (crcSerial s) =
      (bitPoly s * X ^ 16 + bitPoly (List.replicate 16 true) * X ^ s.length) %ₘ generator := by
  have hinit : bin 16 crcInit.toNat = List.replicate 16 true := by decide
  have hdegree : (regPoly (crcSerial s)).degree < generator.degree := by
    rw [degree_generator]
    exact degree_bitPoly_lt _
  obtain ⟨q, hq⟩ := regPoly_foldl_crcSerialBit s crcInit
  rw [← hinit]
  exact (div_modByMonic_unique q _ generator_monic ⟨hq, hdegree⟩).2.symm

end Algebraic

/-! ## The obligations -/

/-- Settles O8: CRC16 is the bit-serial register, each step of which is one multiplication by `x` modulo the
generator. -/
theorem crcIsPolynomialRemainder : Obligations.CrcIsPolynomialRemainder := by
  intro bytes
  change regPoly (crc16 bytes) =
    (bitPoly (messageBits bytes) * Polynomial.X ^ 16
      + bitPoly (List.replicate 16 true) * Polynomial.X ^ (8 * bytes.length)) %ₘ generator
  rw [crc16_eq_crcSerial, regPoly_crcSerial, length_messageBits]

/-- Settles O9: the flipped byte gives another register, and the bytes after it keep two registers apart. -/
theorem crcDetectsEverySingleBitFlip : Obligations.CrcDetectsEverySingleBitFlip := by
  intro data byteIndex bitIndex hbyte hbit h
  obtain ⟨before, b, later, hdata, -, hflipped⟩ :=
    List.exists_of_modify (fun b : Byte => b ^^^ ((1 : Byte) <<< bitIndex)) hbyte
  rw [hflipped, hdata, crc16_append, crc16_append] at h
  have hsame : b ^^^ ((1 : Byte) <<< bitIndex) = b :=
    crcByte_right_injective _ (foldl_crcByte_injective later h)
  exact one_shiftLeft_ne_zero bitIndex hbit (by simpa using hsame)

/-- Settles O7: CRC_BYTE takes in the bits of its byte one at each shift, and CRC16 folds it over the bytes. -/
theorem crcEqualsSerialRegister : Obligations.CrcEqualsSerialRegister := by
  intro s
  refine ⟨fun bytes => ?_, fun crc b => ?_⟩
  · rw [exec_crc16, crc16_eq_crcSerial]
  · rw [exec_crcByte, crcByte_eq_serial]

/-- Settles O6: CRC16 is a fold of CRC_BYTE, so the last byte is one more CRC_BYTE. -/
theorem crc16FoldsCrcByte : Obligations.Crc16FoldsCrcByte := by
  intro s
  refine ⟨by rw [exec_crc16, crc16_nil], fun bytes b => ?_⟩
  refine ⟨crc16 bytes, crcByte (crc16 bytes) b, exec_crc16 bytes s, exec_crcByte _ b s, ?_⟩
  rw [exec_crc16, crc16_append, List.foldl_cons, List.foldl_nil]

end Sys2Proof.Machine
end

section
/-!
The family of 41_frame.md: CONSTRUCT (R131), CORRUPT (R145), REPAIR (R148) and ISVALID (R150). Each operation writes its
result and nothing else, so the statements turn on the frame it returns; the CRC in them is the bit-serial register's.
-/

namespace Sys2Proof.Machine

/-! ## CONSTRUCT (R131) -/

theorem priorityInRange_iff {p : Int} : priorityInRange p = true ↔ 0 ≤ p ∧ p ≤ 2047 := by
  rw [priorityInRange, Bool.and_eq_true, decide_eq_true_iff, decide_eq_true_iff]
  rfl

section Construct

variable {time : Nat} {data : List Byte} {priority : Int} {s : State}

theorem exec_construct_of_legal (hlow : 0 ≤ priority) (hhigh : priority ≤ 2047) (hdata : data ≠ [])
    (hlen : data.length ≤ 15) :
    exec (.construct time data priority) s =
      .next { s with result := .frame (newFrame time data priority.toNat) } := by
  have hfits : ¬ Config.dataMax < data.length := Nat.not_lt.mpr hlen
  simp [exec, execConstruct, priorityInRange_iff.mpr ⟨hlow, hhigh⟩, hdata, hfits, setResult]

theorem exec_construct_of_illegal (h : priority < 0 ∨ 2047 < priority ∨ data = []) :
    exec (.construct time data priority) s = .next { s with result := .error .constructionError } := by
  have hcheck : priorityInRange priority = false ∨ data = [] := by
    refine (or_assoc.mpr h).imp_left fun hout => ?_
    rw [← Bool.not_eq_true, priorityInRange_iff]
    omega
  obtain hrange | rfl := hcheck
  · simp [exec, execConstruct, hrange, takeError, errorClassOf, setResult]
  · simp [exec, execConstruct, takeError, errorClassOf, setResult]

theorem exec_construct_of_overlong (hlow : 0 ≤ priority) (hhigh : priority ≤ 2047) (hlen : 15 < data.length) :
    exec (.construct time data priority) s = .refused .payloadTooLong := by
  have hdata : data ≠ [] := List.ne_nil_of_length_pos (Nat.zero_lt_of_lt hlen)
  have hover : Config.dataMax < data.length := hlen
  simp [exec, execConstruct, priorityInRange_iff.mpr ⟨hlow, hhigh⟩, hdata, hover]

/-- Eleven bits hold every legal priority (R22). -/
theorem toNat_priority_newFrame {p : Nat} (h : p ≤ 2047) : (newFrame time data p).priority.toNat = p :=
  Nat.mod_eq_of_lt (Nat.lt_succ_of_le h)

end Construct

/-- The frame string is the fields in the order of R81, written out. -/
theorem frameBits_eq (f : Frame) :
    frameBits f =
      arbitrationId f ++ stuffBit f ++ [false] ++ [false] ++ [false] ++ dlcString f ++ dataBits f ++
        bin 16 f.crc.toNat ++ [true, true] ++ List.replicate 7 true ++ [true, true, true] := rfl

/-! ## CORRUPT (R145) -/

section Corrupt

variable {f : Frame} {byteIndex bitIndex : Nat}

theorem exec_corrupt (s : State) :
    exec (.corrupt f byteIndex bitIndex) s =
      .next { s with result := .frame (corruptFrame f byteIndex bitIndex) } := rfl

/-- The drawn byte is XORed with the mask of the drawn bit, every other byte is kept. -/
theorem getElem?_data_corruptFrame (j : Nat) :
    (corruptFrame f byteIndex bitIndex).data[j]? =
      if byteIndex = j then f.data[j]?.map (· ^^^ (1 : Byte) <<< bitIndex) else f.data[j]? := by
  rw [corruptFrame, List.getElem?_modify]
  split <;> simp

theorem length_data_corruptFrame : (corruptFrame f byteIndex bitIndex).data.length = f.data.length :=
  List.length_modify ..

/-- The mask of R145 has exactly the drawn bit set. -/
theorem getLsbD_one_shiftLeft : ∀ i < 8, ∀ m < 8, ((1 : Byte) <<< i).getLsbD m = decide (m = i) := by decide

/-- XOR with one mask twice changes nothing, so the same draws restore the frame. -/
theorem corruptFrame_corruptFrame : corruptFrame (corruptFrame f byteIndex bitIndex) byteIndex bitIndex = f := by
  have hmask : Function.Involutive fun b : Byte => b ^^^ (1 : Byte) <<< bitIndex := fun b => by simp
  simp only [corruptFrame, List.modify_modify_eq, hmask.comp_self, List.modify_id]

end Corrupt

/-! ## REPAIR (R148) and ISVALID (R150) -/

theorem exec_repair (f : Frame) (s : State) :
    exec (.repair f) s = .next { s with result := .frame (repairFrame f) } := rfl

theorem exec_isvalid (f : Frame) (s : State) :
    exec (.isvalid f) s = .next { s with result := .valid (frameValid f) } := rfl

/-- Validity is the comparison with the bit-serial CRC (R114, R150). -/
theorem frameValid_eq_decide (f : Frame) : frameValid f = decide (crcSerial (messageBits f.data) = f.crc) := by
  rw [frameValid, crc16_eq_crcSerial, beq_eq_decide]

/-! ## The obligations -/

/-- Settles O10: legal operands give `newFrame`, whose priority fits in eleven bits, and the other operands fall to the
first check they fail. -/
theorem constructChecksThenBuilds : Obligations.ConstructChecksThenBuilds := by
  intro time data priority s
  refine ⟨fun hlow hhigh hdata hlen => ?_, exec_construct_of_illegal, exec_construct_of_overlong⟩
  have hexec := exec_construct_of_legal (time := time) (s := s) hlow hhigh hdata hlen
  lift priority to ℕ using hlow
  have hpriority : (newFrame time data priority).priority.toNat = priority :=
    toNat_priority_newFrame (by exact_mod_cast hhigh)
  refine ⟨_, hexec, rfl, congrArg Nat.cast hpriority, rfl, crc16_eq_crcSerial data, congrArg (bin 11) hpriority, ?_,
    rfl, rfl, rfl, frameBits_eq _⟩
  rw [stuffBit_eq, Int.toNat_natCast, hpriority]
  norm_cast

/-- Settles O16: the drawn byte is XORed with the mask of the drawn bit, and XOR with it again is the identity. -/
theorem corruptFlipsTheDrawnBit : Obligations.CorruptFlipsTheDrawnBit := by
  intro f byteIndex bitIndex s _ hbyte hbit
  refine ⟨_, exec_corrupt s, rfl, rfl, rfl, length_data_corruptFrame, fun j hj => ?_, ?_, rfl, ?_⟩
  · rw [getElem?_data_corruptFrame, if_neg hj.symm]
  · have hdrawn : f.data[byteIndex]? = some f.data[byteIndex] := List.getElem?_eq_getElem hbyte
    refine ⟨_, f.data[byteIndex] ^^^ (1 : Byte) <<< bitIndex, hdrawn, ?_, fun m hm => ?_⟩
    · rw [getElem?_data_corruptFrame, if_pos rfl, hdrawn, Option.map_some]
    · rw [BitVec.getLsbD_xor, getLsbD_one_shiftLeft bitIndex hbit m hm]
  · rw [exec_corrupt, corruptFrame_corruptFrame]

/-- Settles O17: the repaired frame is valid, and the repair of a valid frame is the frame itself. -/
theorem repairRecomputesCrc : Obligations.RepairRecomputesCrc := by
  intro f s
  have hvalid := frameValid_repairFrame f
  refine ⟨repairFrame f, exec_repair f s, rfl, rfl, rfl, crc16_eq_crcSerial f.data, ?_, fun hcrc => ?_, ?_⟩
  · rw [exec_repair, repairFrame_of_valid hvalid]
  · exact repairFrame_of_valid (by rw [frameValid_eq_decide, hcrc, decide_eq_true rfl])
  · rw [exec_isvalid, hvalid]

/-- Settles O18: CRC16 of the data is the bit-serial register's value. -/
theorem isValidComparesCrc : Obligations.IsValidComparesCrc := by
  intro f s
  rw [exec_isvalid, frameValid_eq_decide]

end Sys2Proof.Machine
end

section
/-!
The family of 42_node.md: what the node operations do to the slot they name (R161 to R171), and that no operation sees a
receive-error counter (R168). The second part compares each operation with itself on the state without these counters:
every operation but RECEIVE and the rounds commutes with their erasure, and what RECEIVE writes is erased.
-/

namespace Sys2Proof.Machine

/-! ## Operations on a slot that holds a node -/

section NodeCommands

variable {s : State} {k : Nat} {n : Node} {st : Status}

theorem updateNode_of_node (f : Node → Node) (h : nodeAt s k = some n) : updateNode s k f = putNode s k (f n) := by
  simp [updateNode, h]

/-- A status transition of a node that exists: its status and one event (R162 to R165). -/
theorem enterStatus_of_node (h : nodeAt s k = some n) :
    enterStatus st s k = emit (putNode s k { n with status := st }) (.statusChanged n.id st) := by
  rw [enterStatus, updateNode_of_node _ h, emitNode_of_node _ (nodeAt_putNode_self (lt_of_nodeAt h))]

/-- Popping the head (R13): the first pending frame, or `null`, is the new head. -/
theorem popNext_eq (n : Node) : popNext n = { n with next := n.pending.head?, pending := n.pending.tail } := by
  unfold popNext
  split
  next h => simp [h]
  next h => simp [h]

theorem nodeInit_of_selfListener {id : Nat} {listeners : List Nat} {frames : List Frame} (hslot : k < s.nodes.length)
    (hfree : nodeAt s k = none) (hself : id ∈ listeners) :
    nodeInit k id listeners frames s = .refused .selfListener := by
  have hexists : ¬ s.nodes.length ≤ k := Nat.not_le.mpr hslot
  simp [nodeInit, hexists, hfree, hself]

theorem transmit_of_not_ready (h : nodeAt s k = some n) (hnot : n.status ≠ .sending ∨ n.next = none) :
    transmit k s = .refused .transmitPrecondition := by
  rw [transmit, withNode_of_node h]
  split
  next hstatus hnext => simp [hstatus, hnext] at hnot
  next => rfl

/-- RECEIVE of a node that exists, with a frame on the bus, is what `receive` leaves and answers. -/
theorem exec_receive_of_node {f : Frame} (h : nodeAt s k = some n) (hbus : s.busOnBus = some f) :
    exec (.receive k) s = .next (setResult (receive f k s).1 (.ack (receive f k s).2)) := by
  simp only [exec, execReceive, withNode_of_node h, hbus]

theorem exec_ackSuccess_of_node (h : nodeAt s k = some n) :
    exec (.ackSuccess k) s =
      if n.next.isSome then .next (setResult (putNode s k (popNext n)) .none) else .refused .ackWithoutFrame := by
  simp only [exec, execAckSuccess, withNode_of_node h, ackSuccess, updateNode_of_node _ h]

theorem exec_ackFailure_of_node (h : nodeAt s k = some n) :
    exec (.ackFailure k) s =
      if n.next.isSome then
        .next (setResult
          (putNode s k { n with transmitErrors := n.transmitErrors + 1, next := n.next.map repairFrame }) .none)
      else .refused .ackWithoutFrame := by
  simp only [exec, execAckFailure, withNode_of_node h, ackFailure, takeError, updateNode_of_node _ h]

/-- A node is eligible from the tick of its head frame on (R190). -/
theorem eligible_of_head {f : Frame} (h : nodeAt s k = some n) (hhead : n.next = some f) (htime : f.time ≤ s.busTick) :
    eligible s k = true := by
  simp only [eligible, h, hhead, decide_eq_true htime]

end NodeCommands

/-! ## The obligations about the node commands -/

/-- Settles O20: on a free slot the one check left is that of the node's own id. -/
theorem nodeInitWritesFreshRecord : Obligations.NodeInitWritesFreshRecord := by
  intro k id listeners frames s hslot hfree
  refine ⟨fun hself => ?_, fun hself => ?_⟩
  · rw [exec, execNodeInit, nodeInit_eq_next_iff.mpr ⟨hslot, hfree, hself, rfl⟩, freshNode, popNext_eq]
    rfl
  · rw [exec, execNodeInit, nodeInit_of_selfListener hslot hfree hself, andThen_refused]

/-- Settles O22: the two conditions of TRANSMIT decide between the write of `bus.onBus` and the refusal. -/
theorem transmitPublishesHead : Obligations.TransmitPublishesHead := by
  intro k n s hn
  refine ⟨fun f hstatus hnext => ?_, fun hnot => ?_⟩
  · rw [exec, execTransmit, transmit_eq_next_iff.mpr ⟨n, f, hn, hstatus, hnext, rfl⟩]
    rfl
  · rw [exec, execTransmit, transmit_of_not_ready hn hnot, andThen_refused]

/-- Settles O23: validity is the comparison with the bit-serial CRC. -/
theorem receiveValidatesOnBus : Obligations.ReceiveValidatesOnBus := by
  intro k n s hn
  refine ⟨fun f hbus hcrc => ?_, fun f hbus hcrc => ?_, fun hbus => ?_⟩
  · have hvalid : frameValid f = true := by rw [frameValid_eq_decide, decide_eq_true hcrc]
    rw [exec_receive_of_node hn hbus, receive, if_pos hvalid]
    rfl
  · have hinvalid : ¬ frameValid f = true := by simpa [frameValid_eq_decide] using hcrc
    rw [exec_receive_of_node hn hbus, receive, if_neg hinvalid, takeError, updateNode_of_node _ hn]
    rfl
  · simp only [exec, execReceive, withNode_of_node hn, hbus]

/-- Settles O24: popping the queue replaces the head and touches nothing else of the node. -/
theorem ackSuccessDequeues : Obligations.AckSuccessDequeues := by
  intro k n s hn
  refine ⟨fun hnext => ?_, fun hnext => ?_⟩
  · rw [exec_ackSuccess_of_node hn, if_pos (Option.isSome_iff_ne_none.mpr hnext), popNext_eq]
    rfl
  · rw [exec_ackSuccess_of_node hn, hnext]
    rfl

/-- Settles O25: the new head is the repaired frame, whose time is the old one's. -/
theorem ackFailureCountsAndRepairs : Obligations.AckFailureCountsAndRepairs := by
  intro k n s hn
  refine ⟨fun f hnext => ?_, fun hnext => ?_⟩
  · refine ⟨repairFrame f, _, rfl, rfl, rfl, crc16_eq_crcSerial f.data, fun hcrc => ?_, rfl, ?_, fun tick htick => ?_⟩
    · exact repairFrame_of_valid (by rw [frameValid_eq_decide, decide_eq_true hcrc.symm])
    · rw [exec_ackFailure_of_node hn, hnext]
      rfl
    · have hnode := nodeAt_putNode_self (lt_of_nodeAt hn)
        (n := { n with transmitErrors := n.transmitErrors + 1, next := some (repairFrame f) })
      exact eligible_of_head (f := repairFrame f) hnode rfl htick
  · rw [exec_ackFailure_of_node hn, hnext]
    rfl

/-- Settles O21: the four operations are one status transition. -/
theorem enterOperationsWriteStatusOnly : Obligations.EnterOperationsWriteStatusOnly := by
  intro k n s hn
  have transition (st : Status) :
      (withNode s k fun n => .next (setResult (enterStatus st s k) (.description n.id st))) =
        .next
          (setResult (emit (putNode s k { n with status := st }) (.statusChanged n.id st)) (.description n.id st)) := by
    rw [withNode_of_node hn, enterStatus_of_node hn]
  exact ⟨transition .arbitrating, transition .idle, transition .sending, transition .receiving⟩

/-! ## Outcomes through a function -/

section MapNext

variable {g : State → State} {o : Host.Outcome State Fault Refusal} {f : State → Host.Outcome State Fault Refusal}

@[simp] theorem mapNext_next (s : State) : mapNext g (.next s) = .next (g s) := rfl

@[simp] theorem mapNext_andThen : mapNext g (andThen o f) = andThen o fun s => mapNext g (f s) := by
  cases o <;> rfl

@[simp] theorem mapNext_withNode {s : State} {k : Nat} {f : Node → Host.Outcome State Fault Refusal} :
    mapNext g (withNode s k f) = withNode s k fun n => mapNext g (f n) := by
  unfold withNode
  cases nodeAt s k <;> rfl

end MapNext

/-! ## The state without receive-error counters: what is read from it

Everything but the counters reads as before.
-/

section Erased

variable {s : State} {k : Nat} {n : Node}

@[simp] theorem eraseReceiveErrors_id : (eraseReceiveErrors n).id = n.id := rfl
@[simp] theorem eraseReceiveErrors_next : (eraseReceiveErrors n).next = n.next := rfl
@[simp] theorem eraseReceiveErrors_status : (eraseReceiveErrors n).status = n.status := rfl

@[simp] theorem eraseRec_nodes : (eraseRec s).nodes = s.nodes.map (Option.map eraseReceiveErrors) := rfl
@[simp] theorem eraseRec_busConnected : (eraseRec s).busConnected = s.busConnected := rfl
@[simp] theorem eraseRec_busOnBus : (eraseRec s).busOnBus = s.busOnBus := rfl
@[simp] theorem eraseRec_drvTick : (eraseRec s).drvTick = s.drvTick := rfl
@[simp] theorem eraseRec_drvPauseReq : (eraseRec s).drvPauseReq = s.drvPauseReq := rfl
@[simp] theorem eraseRec_drvStopReq : (eraseRec s).drvStopReq = s.drvStopReq := rfl
@[simp] theorem eraseRec_drvSetupDone : (eraseRec s).drvSetupDone = s.drvSetupDone := rfl
@[simp] theorem eraseRec_cfgDupIdPolicy : (eraseRec s).cfgDupIdPolicy = s.cfgDupIdPolicy := rfl
@[simp] theorem eraseRec_seqPhase : (eraseRec s).seqPhase = s.seqPhase := rfl
@[simp] theorem eraseRec_seqWinner : (eraseRec s).seqWinner = s.seqWinner := rfl
@[simp] theorem eraseRec_seqWonAt : (eraseRec s).seqWonAt = s.seqWonAt := rfl
@[simp] theorem eraseRec_seqAckSeen : (eraseRec s).seqAckSeen = s.seqAckSeen := rfl

@[simp] theorem nodeAt_eraseRec : nodeAt (eraseRec s) k = (nodeAt s k).map eraseReceiveErrors := by
  simp only [nodeAt, eraseRec_nodes, List.getElem?_map, Option.join_map_eq_map_join]

@[simp] theorem eraseRec_eraseRec : eraseRec (eraseRec s) = eraseRec s := by
  have herase : Option.map eraseReceiveErrors ∘ Option.map eraseReceiveErrors = Option.map eraseReceiveErrors := by
    rw [Option.map_comp_map]
    rfl
  simp only [eraseRec, List.map_map, herase]

@[simp] theorem withNode_eraseRec {f : Node → Host.Outcome State Fault Refusal} :
    withNode (eraseRec s) k f = withNode s k fun n => f (eraseReceiveErrors n) := by
  unfold withNode
  rw [nodeAt_eraseRec]
  cases nodeAt s k <;> rfl

@[simp] theorem statusIs_eraseRec (st : Status) : statusIs (eraseRec s) st = statusIs s st := by
  funext k
  unfold statusIs
  rw [nodeAt_eraseRec]
  cases nodeAt s k <;> rfl

@[simp] theorem eligible_eraseRec : eligible (eraseRec s) = eligible s := by
  funext k
  unfold eligible
  rw [nodeAt_eraseRec]
  cases nodeAt s k <;> rfl

@[simp] theorem dominantAt_eraseRec (i : Nat) : dominantAt (eraseRec s) i = dominantAt s i := by
  funext k
  unfold dominantAt
  rw [nodeAt_eraseRec]
  cases nodeAt s k <;> rfl

@[simp] theorem limitReached_eraseRec : limitReached (eraseRec s) k = limitReached s k := by
  unfold limitReached
  rw [nodeAt_eraseRec]
  cases nodeAt s k <;> rfl

@[simp] theorem contenders_eraseRec : contenders (eraseRec s) = contenders s := by
  simp [contenders]

@[simp] theorem busQuiet_eraseRec : busQuiet (eraseRec s) = busQuiet s := by
  simp [busQuiet]

@[simp] theorem activeListeners_eraseRec : activeListeners (eraseRec s) k = activeListeners s k := by
  unfold activeListeners
  rw [nodeAt_eraseRec]
  cases nodeAt s k with
  | none => rfl
  | some n =>
    refine List.filter_congr fun j _ => ?_
    rw [nodeAt_eraseRec]
    cases nodeAt s j <;> rfl

@[simp] theorem stopCondition_eraseRec : stopCondition (eraseRec s) = stopCondition s := by
  unfold stopCondition
  congr 1
  funext j
  rw [nodeAt_eraseRec]
  cases nodeAt s j <;> rfl

@[simp] theorem runReturns_eraseRec : runReturns (eraseRec s) = runReturns s := by
  simp [runReturns]

end Erased

/-! ## The writes and the steps that commute with the erasure -/

section Commuting

variable {s : State} {k w : Nat}

@[simp] theorem eraseRec_emit (e : EventKind) : eraseRec (emit s e) = emit (eraseRec s) e := rfl
@[simp] theorem eraseRec_setPhase (p : Phase) : eraseRec (setPhase s p) = setPhase (eraseRec s) p := rfl
@[simp] theorem eraseRec_setConnected (ks : List Nat) :
    eraseRec (setConnected s ks) = setConnected (eraseRec s) ks := rfl
@[simp] theorem eraseRec_setOnBus (f : Option Frame) : eraseRec (setOnBus s f) = setOnBus (eraseRec s) f := rfl
@[simp] theorem eraseRec_setDrvTick (t : Nat) : eraseRec (setDrvTick s t) = setDrvTick (eraseRec s) t := rfl
@[simp] theorem eraseRec_setRunning (b : Bool) : eraseRec (setRunning s b) = setRunning (eraseRec s) b := rfl
@[simp] theorem eraseRec_setBitIndex (i : Nat) : eraseRec (setBitIndex s i) = setBitIndex (eraseRec s) i := rfl
@[simp] theorem eraseRec_setWinner (o : Option Nat) (i : Nat) :
    eraseRec (setWinner s o i) = setWinner (eraseRec s) o i := rfl
@[simp] theorem eraseRec_setAckSeen (b : Bool) : eraseRec (setAckSeen s b) = setAckSeen (eraseRec s) b := rfl
@[simp] theorem eraseRec_setResult (r : Result) : eraseRec (setResult s r) = setResult (eraseRec s) r := rfl

theorem eraseRec_putNode (n : Node) : eraseRec (putNode s k n) = putNode (eraseRec s) k (eraseReceiveErrors n) := by
  simp [eraseRec, putNode, List.map_set]

/-- A change of a node record commutes with the erasure if the change of the record alone does. -/
theorem eraseRec_updateNode {f : Node → Node} (h : ∀ n, eraseReceiveErrors (f n) = f (eraseReceiveErrors n)) :
    eraseRec (updateNode s k f) = updateNode (eraseRec s) k f := by
  unfold updateNode
  rw [nodeAt_eraseRec]
  cases nodeAt s k with
  | none => rfl
  | some n => simp only [Option.map_some, eraseRec_putNode, h]

/-- An event about a node commutes with the erasure if it does not show the counter. -/
theorem eraseRec_emitNode {mk : Node → EventKind} (h : ∀ n, mk (eraseReceiveErrors n) = mk n) :
    eraseRec (emitNode s k mk) = emitNode (eraseRec s) k mk := by
  unfold emitNode
  rw [nodeAt_eraseRec]
  cases nodeAt s k with
  | none => rfl
  | some n => simp only [Option.map_some, eraseRec_emit, h]

theorem eraseRec_forSlots {f : State → Nat → State} (h : ∀ s k, eraseRec (f s k) = f (eraseRec s) k) (ks : List Nat)
    (s : State) : eraseRec (forSlots f ks s) = forSlots f ks (eraseRec s) :=
  (List.foldl_hom eraseRec fun s k => (h s k).symm).symm

@[simp] theorem eraseRec_enterStatus (st : Status) : eraseRec (enterStatus st s k) = enterStatus st (eraseRec s) k := by
  rw [enterStatus, eraseRec_emitNode fun _ => rfl, eraseRec_updateNode (by exact fun _ => rfl), enterStatus]

/-! ### Arbitration (R190 to R199) -/

@[simp] theorem eraseRec_forSlots_enterStatus (st : Status) (ks : List Nat) :
    eraseRec (forSlots (enterStatus st) ks s) = forSlots (enterStatus st) ks (eraseRec s) :=
  eraseRec_forSlots (fun _ _ => eraseRec_enterStatus st) ks s

@[simp] theorem eraseRec_announceStart (e : List Nat) :
    eraseRec (announceStart e s) = announceStart e (eraseRec s) := by
  have hids : (e.filterMap fun k => (nodeAt (eraseRec s) k).map Node.id) =
      e.filterMap fun k => (nodeAt s k).map Node.id := by
    simp [Function.comp_def]
  unfold announceStart
  rw [hids]
  split <;> rfl

@[simp] theorem eraseRec_enterEligible : eraseRec (enterEligible s) = enterEligible (eraseRec s) := by
  simp [enterEligible]

@[simp] theorem eraseRec_reportBits (i : Nat) (a : List Nat) :
    eraseRec (reportBits i a s) = reportBits i a (eraseRec s) :=
  eraseRec_forSlots (fun _ _ => eraseRec_emitNode fun _ => rfl) a s

theorem eliminate_eraseRec (i : Nat) (a : List Nat) (ld : Option Nat) :
    eliminate i a ld (eraseRec s) = Prod.map eraseRec id (eliminate i a ld s) := by
  unfold eliminate
  rw [dominantAt_eraseRec]
  split
  · rfl
  · simp

theorem compareIndex_eraseRec (i : Nat) (a : List Nat) (ld : Option Nat) :
    compareIndex i a ld (eraseRec s) = Prod.map eraseRec id (compareIndex i a ld s) := by
  rw [compareIndex, ← eraseRec_reportBits, eliminate_eraseRec, compareIndex]

/-- What the comparator leaves behind, without the receive-error counters. -/
def eraseRun (r : ArbRun) : ArbRun := { r with st := eraseRec r.st }

theorem arbLoop_eraseRec (is : List Nat) (ld : Option Nat) (s : State) :
    arbLoop is ld (eraseRec s) = eraseRun (arbLoop is ld s) := by
  induction is generalizing ld s with
  | nil => rfl
  | cons i is ih =>
    unfold arbLoop
    rw [contenders_eraseRec]
    split
    · rfl
    · rw [← eraseRec_setBitIndex, ih]
    · rw [← eraseRec_setBitIndex, compareIndex_eraseRec, Prod.map_fst, Prod.map_snd, ih, id]

theorem mapNext_exhaust (ld : Option Nat) : mapNext eraseRec (exhaust ld s) = exhaust ld (eraseRec s) := by
  unfold exhaust
  rw [contenders_eraseRec, eraseRec_cfgDupIdPolicy]
  split
  · rfl
  · rfl
  · split <;> rfl

theorem eraseRec_announceWinner : eraseRec (announceWinner s) = announceWinner (eraseRec s) := by
  unfold announceWinner
  rw [eraseRec_seqWinner]
  split
  · exact eraseRec_emitNode fun _ => rfl
  · rfl

/-- A sequence commutes with the erasure if both its parts do. -/
theorem mapNext_andThen_of_commutes {o : Host.Outcome State Fault Refusal}
    {f : State → Host.Outcome State Fault Refusal} (h : ∀ s, mapNext eraseRec (f s) = f (eraseRec s)) :
    mapNext eraseRec (andThen o f) = andThen (mapNext eraseRec o) f := by
  rw [mapNext_andThen, funext h]
  cases o <;> rfl

theorem mapNext_finishArbitration (r : ArbRun) :
    mapNext eraseRec (finishArbitration r) = finishArbitration (eraseRun r) := by
  rw [finishArbitration, mapNext_andThen_of_commutes fun s => congrArg _ eraseRec_announceWinner, finishArbitration]
  congr 1
  cases h : r.stopped
  · simp [eraseRun, h, mapNext_exhaust]
  · simp [eraseRun, h]

theorem mapNext_arbitrate : mapNext eraseRec (arbitrate s) = arbitrate (eraseRec s) := by
  rw [arbitrate, mapNext_finishArbitration, ← arbLoop_eraseRec, eraseRec_enterEligible, eraseRec_setWinner, arbitrate]

/-! ### The steps of a round (R213 to R224) -/

theorem mapNext_transmit : mapNext eraseRec (transmit k s) = transmit k (eraseRec s) := by
  unfold transmit
  rw [mapNext_withNode, withNode_eraseRec]
  congr 1
  funext n
  rw [eraseReceiveErrors_status, eraseReceiveErrors_next]
  split <;> rfl

theorem eraseRec_emitFields : eraseRec (emitFields w s) = emitFields w (eraseRec s) := by
  unfold emitFields
  rw [eraseRec_busOnBus, eraseRec_seqWonAt]
  split
  · exact (List.foldl_hom eraseRec fun s p => (eraseRec_emitNode fun _ => rfl).symm).symm
  · rfl

theorem mapNext_transmission (ls : List Nat) :
    mapNext eraseRec (transmission w ls s) = transmission w ls (eraseRec s) := by
  rw [transmission, mapNext_andThen_of_commutes fun s => congrArg _ eraseRec_emitFields, mapNext_transmit,
    eraseRec_forSlots_enterStatus, transmission]

theorem eraseReceiveErrors_popNext (n : Node) : eraseReceiveErrors (popNext n) = popNext (eraseReceiveErrors n) := by
  simp only [popNext_eq]
  rfl

@[simp] theorem eraseRec_ackSuccess : eraseRec (ackSuccess k s) = ackSuccess k (eraseRec s) :=
  eraseRec_updateNode eraseReceiveErrors_popNext

@[simp] theorem eraseRec_ackFailure : eraseRec (ackFailure k s) = ackFailure k (eraseRec s) :=
  eraseRec_updateNode fun _ => rfl

theorem eraseRec_disconnect : eraseRec (disconnect s k) = disconnect (eraseRec s) k := by
  rw [disconnect, eraseRec_emitNode fun _ => rfl, eraseRec_setConnected, disconnect, eraseRec_busConnected]

@[simp] theorem eraseRec_evict : eraseRec (evict k s) = evict k (eraseRec s) := by
  rw [evict, takeError, eraseRec_disconnect, eraseRec_updateNode (by exact fun _ => rfl), evict, takeError]

@[simp] theorem eraseRec_outcome : eraseRec (outcome w s) = outcome w (eraseRec s) := by
  unfold outcome reportFailure
  rw [eraseRec_seqAckSeen]
  split
  · simp
  · rw [eraseRec_emitNode fun _ => rfl, eraseRec_ackFailure, eraseRec_setPhase]

@[simp] theorem eraseRec_evictionCheck : eraseRec (evictionCheck w s) = evictionCheck w (eraseRec s) := by
  unfold evictionCheck
  rw [limitReached_eraseRec]
  split <;> simp

theorem eraseRec_idleStep : eraseRec (idleStep s k) = idleStep (eraseRec s) k := by
  unfold idleStep
  rw [statusIs_eraseRec]
  split <;> simp

@[simp] theorem eraseRec_roundReset : eraseRec (roundReset s) = roundReset (eraseRec s) := by
  have hidle := eraseRec_forSlots (f := idleStep) fun _ _ => eraseRec_idleStep
  simp [roundReset, hidle]

/-! ### Initialisation (R161, R241) -/

theorem eraseReceiveErrors_freshNode (id : Nat) (listeners : List Nat) (frames : List Frame) :
    eraseReceiveErrors (freshNode id listeners frames) = freshNode id listeners frames :=
  eraseReceiveErrors_popNext _

theorem mapNext_nodeInit (id : Nat) (listeners : List Nat) (frames : List Frame) :
    mapNext eraseRec (nodeInit k id listeners frames s) = nodeInit k id listeners frames (eraseRec s) := by
  unfold nodeInit
  rw [eraseRec_nodes, List.length_map, nodeAt_eraseRec, Option.isSome_map]
  split_ifs
  · rfl
  · rfl
  · rfl
  · rw [mapNext_next, eraseRec_putNode, eraseReceiveErrors_freshNode]

theorem mapNext_setupNodes (j : Nat) (specs : List NodeSpec) (s : State) :
    mapNext eraseRec (setupNodes j specs s) = setupNodes j specs (eraseRec s) := by
  induction specs generalizing j s with
  | nil => rfl
  | cons n rest ih =>
    rw [setupNodes, mapNext_andThen_of_commutes (by exact fun _ => ih _ _), mapNext_nodeInit, setupNodes]

end Commuting

/-! ## Operations that no receive-error counter changes

RECEIVE does not commute with the erasure: it counts on from the counter it finds. It ends the same way all the same, in
the same state up to the counters, and so does everything composed of such parts.
-/

/-- How `f` ends, and in what state up to the receive-error counters, does not depend on these counters. -/
def Inert (f : State → Host.Outcome State Fault Refusal) : Prop :=
  ∀ s, mapNext eraseRec (f s) = mapNext eraseRec (f (eraseRec s))

section Inert

variable {f g : State → Host.Outcome State Fault Refusal}

theorem inert_of_commutes (h : ∀ s, mapNext eraseRec (f s) = f (eraseRec s)) : Inert f := by
  intro s
  rw [h, h, eraseRec_eraseRec]

theorem inert_next {h : State → State} (hh : ∀ s, eraseRec (h s) = eraseRec (h (eraseRec s))) :
    Inert fun s => .next (h s) :=
  fun s => congrArg Host.Outcome.next (hh s)

theorem inert_andThen (hf : Inert f) (hg : Inert g) : Inert fun s => andThen (f s) g := by
  have through (o : Host.Outcome State Fault Refusal) :
      mapNext eraseRec (andThen o g) = mapNext eraseRec (andThen (mapNext eraseRec o) g) := by
    cases o with
    | next s => exact hg s
    | fault r => rfl
    | refused r => rfl
  intro s
  change mapNext eraseRec (andThen (f s) g) = mapNext eraseRec (andThen (f (eraseRec s)) g)
  rw [through, hf s, ← through]

/-- The operand form: the body must not see the counter of the node it is given, either. -/
theorem inert_withNode {k : Nat} {body : State → Node → Host.Outcome State Fault Refusal}
    (h : ∀ s n, mapNext eraseRec (body s n) = mapNext eraseRec (body (eraseRec s) (eraseReceiveErrors n))) :
    Inert fun s => withNode s k (body s) := by
  intro s
  simp only [mapNext_withNode, withNode_eraseRec, ← h]

/-- Returning a result that no counter shows. -/
theorem inert_setResult (hf : Inert f) (r : Result) : Inert fun s => andThen (f s) fun s' => .next (setResult s' r) :=
  inert_andThen hf (inert_next fun s => by simp)

end Inert

section Receiving

variable {s : State} {k w : Nat} {f : Frame}

theorem putNode_eq_self {n : Node} (h : nodeAt s k = some n) : putNode s k n = s := by
  obtain ⟨hk, hn⟩ := List.getElem?_eq_some_iff.mp (nodeAt_eq_some_iff.mp h)
  rw [putNode, ← hn, List.set_getElem_self]

/-- The one write of a receive-error counter is erased (R171, R263). -/
@[simp] theorem eraseRec_takeError_frameCorruption : eraseRec (takeError (.frameCorruption k) s) = eraseRec s := by
  cases h : nodeAt s k with
  | none => simp only [takeError, updateNode, h]
  | some n =>
    have herased : nodeAt (eraseRec s) k = some (eraseReceiveErrors n) := by rw [nodeAt_eraseRec, h, Option.map_some]
    rw [takeError, updateNode_of_node _ h, eraseRec_putNode]
    exact putNode_eq_self herased

theorem eraseRec_receive : eraseRec (receive f k s).1 = eraseRec s := by
  unfold receive
  split
  · rfl
  · exact eraseRec_takeError_frameCorruption

/-- The acknowledgment indicator depends on the frame alone. -/
theorem receive_snd : (receive f k s).2 = frameValid f := by
  unfold receive
  split
  next hvalid => exact hvalid.symm
  next hinvalid => exact (Bool.eq_false_of_not_eq_true hinvalid).symm

theorem eraseRec_receiveStep : eraseRec (receiveStep s k) = eraseRec (receiveStep (eraseRec s) k) := by
  unfold receiveStep
  rw [eraseRec_busOnBus]
  split
  · simp [eraseRec_receive, receive_snd]
  · simp

theorem eraseRec_forSlots_receiveStep (ls : List Nat) (s : State) :
    eraseRec (forSlots receiveStep ls s) = eraseRec (forSlots receiveStep ls (eraseRec s)) := by
  induction ls generalizing s with
  | nil => simp
  | cons k ls ih =>
    rw [forSlots_cons, ih, eraseRec_receiveStep, ← ih, forSlots_cons]

theorem eraseRec_reportAck : eraseRec (reportAck w s) = reportAck w (eraseRec s) :=
  eraseRec_emitNode fun _ => rfl

/-- Step 5 (R216, R217). -/
theorem eraseRec_acknowledgment (ls : List Nat) :
    eraseRec (acknowledgment w ls s) = eraseRec (acknowledgment w ls (eraseRec s)) := by
  rw [acknowledgment, eraseRec_reportAck, eraseRec_forSlots_receiveStep, eraseRec_setAckSeen, eraseRec_setPhase,
    ← eraseRec_reportAck, acknowledgment]

/-! ### The operations that receive -/

theorem inert_execReceive (k : Nat) : Inert (execReceive k) := by
  refine inert_withNode fun s _ => ?_
  rw [eraseRec_busOnBus]
  cases s.busOnBus with
  | none => rfl
  | some f => simp [eraseRec_receive, receive_snd]

/-- Steps 1 to 3 (R195). -/
theorem inert_arbitrate : Inert arbitrate := inert_of_commutes fun _ => mapNext_arbitrate

theorem inert_transmission (w : Nat) (ls : List Nat) : Inert (transmission w ls) :=
  inert_of_commutes fun _ => mapNext_transmission ls

/-- Steps 4 to 7 (R213 to R222). -/
theorem inert_deliverTo (w : Nat) (ls : List Nat) : Inert (deliverTo w ls) := by
  refine inert_andThen (inert_transmission w ls) (inert_next fun s => ?_)
  rw [eraseRec_evictionCheck, eraseRec_outcome, eraseRec_acknowledgment, ← eraseRec_outcome, ← eraseRec_evictionCheck]

theorem inert_deliver (w : Nat) : Inert (deliver w) := by
  intro s
  unfold deliver
  rw [← eraseRec_setPhase, ← eraseRec_enterStatus, activeListeners_eraseRec]
  exact inert_deliverTo w _ _

theorem inert_roundBody : Inert roundBody := by
  have steps_1_to_3 : Inert fun s => arbitrate (setPhase (setPhase s .eligibility) .arbitration) :=
    fun s => inert_arbitrate (setPhase (setPhase s .eligibility) .arbitration)
  refine inert_andThen steps_1_to_3 fun s => ?_
  simp only [eraseRec_seqWinner]
  cases s.seqWinner with
  | none => simp
  | some w => exact inert_andThen (inert_deliver w) (inert_next fun s => by simp) s

theorem inert_round : Inert round := by
  intro s
  unfold round
  rw [eraseRec_drvSetupDone, busQuiet_eraseRec, eraseRec_seqPhase]
  split_ifs
  · rfl
  · exact inert_roundBody s
  · rfl

theorem inert_driverStep : Inert driverStep :=
  inert_andThen (fun s => inert_round (setBusTick s s.drvTick)) (inert_next fun s => by simp)

theorem inert_execRun : Inert execRun := by
  intro s
  unfold execRun
  rw [eraseRec_drvSetupDone, runReturns_eraseRec]
  split_ifs
  · rfl
  · simp
  · exact inert_andThen inert_driverStep (inert_next fun s => by simp) s

/-- ARBITRATE returns the arbitration registers, which show no counter (R195). -/
theorem inert_execArbitrate : Inert execArbitrate := by
  intro s
  unfold execArbitrate
  rw [busQuiet_eraseRec]
  split_ifs
  · exact inert_andThen inert_arbitrate (inert_of_commutes fun _ => rfl) s
  · rfl

end Receiving

/-! ### The other operations -/

theorem inert_execConstruct (time : Nat) (data : List Byte) (priority : Int) :
    Inert (execConstruct time data priority) := by
  refine inert_of_commutes fun s => ?_
  unfold execConstruct
  split_ifs <;> rfl

theorem inert_execDecode (bits : Bits) : Inert (execDecode bits) := by
  refine inert_of_commutes fun s => ?_
  unfold execDecode
  split <;> rfl

theorem inert_nodeInit (k id : Nat) (listeners : List Nat) (frames : List Frame) :
    Inert (nodeInit k id listeners frames) :=
  inert_of_commutes fun _ => mapNext_nodeInit id listeners frames

theorem inert_transmit (k : Nat) : Inert (transmit k) := inert_of_commutes fun _ => mapNext_transmit

/-- The four status transitions (R162 to R165). -/
theorem inert_enter (st : Status) (k : Nat) :
    Inert fun s => withNode s k fun n => .next (setResult (enterStatus st s k) (.description n.id st)) :=
  inert_withNode fun s n => by simp

/-- ACK_SUCCESS and ACK_FAILURE check for a head frame and then change the node (R167, R169). -/
theorem inert_acknowledge {op : State → State} (hop : ∀ s, eraseRec (op s) = op (eraseRec s)) (k : Nat) :
    Inert fun s => withNode s k fun n =>
      if n.next.isSome then .next (setResult (op s) .none) else .refused .ackWithoutFrame := by
  refine inert_withNode fun s n => ?_
  rw [eraseReceiveErrors_next]
  split
  · simp [hop]
  · rfl

theorem inert_execEvict (k : Nat) : Inert (execEvict k) :=
  inert_withNode fun s n => by simp

/-- RESET reads the number of slots, which the erasure keeps (R240). -/
theorem inert_execReset : Inert execReset := by
  intro s
  unfold execReset
  rw [eraseRec_seqPhase, eraseRec_nodes, List.length_map]
  split_ifs <;> rfl

theorem inert_execSetup (limit : Nat) (policy : DupIdPolicy) (specs : List NodeSpec) :
    Inert (execSetup limit policy specs) := by
  have launch : Inert fun s => setupNodes 0 specs { s with cfgErrorLimit := limit, cfgDupIdPolicy := policy } :=
    inert_of_commutes fun _ => mapNext_setupNodes 0 specs _
  intro s
  unfold execSetup
  rw [eraseRec_drvSetupDone, eraseRec_nodes, List.length_map]
  split_ifs
  · rfl
  · rfl
  · rfl
  · rfl
  · exact inert_andThen launch (inert_of_commutes fun _ => rfl) s

/-! ## The obligation about receive-error counters -/

/-- Settles O54: only RECEIVE writes a receive-error counter, and nothing reads one but to count on from it. -/
theorem receiveErrorsAreInert : Obligations.ReceiveErrorsAreInert := by
  intro i
  change Inert (exec i)
  cases i with
  | reset => exact inert_execReset
  | construct time data priority => exact inert_execConstruct time data priority
  | decode bits => exact inert_execDecode bits
  | nodeInit k id listeners frames => exact inert_setResult (inert_nodeInit k id listeners frames) .none
  | enterArbitration k => exact inert_enter .arbitrating k
  | enterIdle k => exact inert_enter .idle k
  | enterSending k => exact inert_enter .sending k
  | enterReceiving k => exact inert_enter .receiving k
  | transmit k => exact inert_setResult (inert_transmit k) .none
  | receive k => exact inert_execReceive k
  | ackSuccess k => exact inert_acknowledge (op := ackSuccess k) (fun _ => eraseRec_ackSuccess) k
  | ackFailure k => exact inert_acknowledge (op := ackFailure k) (fun _ => eraseRec_ackFailure) k
  | evict k => exact inert_execEvict k
  | arbitrate => exact inert_execArbitrate
  | round => exact inert_setResult inert_round .none
  | setup limit policy specs => exact inert_execSetup limit policy specs
  | step => exact inert_setResult inert_driverStep .none
  | run => exact inert_execRun
  | crc16 | crcByte | encode | corrupt | repair | isvalid | pause | stop | resume =>
    exact inert_of_commutes fun _ => rfl

end Sys2Proof.Machine
end

section
/-!
The family of 43_arbiter.md: who wins arbitration (R198, R199) and where the arbitrator and the rounds refuse (R195,
R210). A node with the smallest priority value is among the contenders at every index, and the comparator keeps exactly
the nodes that agree with it on the identifier bits compared so far. So the loop is followed from the state before it,
by the contenders left at an index (`contendersAt`) and what `lastDom` then holds.
-/

namespace Sys2Proof.Machine

/-! ## Bit strings compared from the front -/

/-- Two bit strings of one length that stand for one number are equal. -/
theorem eq_of_val_eq {a b : Bits} (hlen : a.length = b.length) (hval : val a = val b) : a = b := by
  rw [← bin_val a, hlen, hval, bin_val]

/-- Of two bit strings of one length, the one with a '0' at the first index where they differ stands for the smaller
number. -/
theorem val_lt_val_of_first_difference {a b : Bits} {i : Nat} (hlen : a.length = b.length)
    (hbefore : a.take i = b.take i) (ha : a.getD i true = false) (hb : b.getD i true = true) : val a < val b := by
  induction a generalizing b i with
  | nil => simp at ha
  | cons x a ih =>
    cases b with
    | nil => simp at hlen
    | cons y b =>
      have htail : a.length = b.length := by simpa using hlen
      rw [val_cons, val_cons, htail]
      cases i with
      | zero =>
        have hlow : val a < 2 ^ b.length := htail ▸ val_lt a
        obtain rfl : x = false := by simpa using ha
        obtain rfl : y = true := by simpa using hb
        simpa using Nat.lt_add_right _ hlow
      | succ i =>
        obtain ⟨rfl, htake⟩ : x = y ∧ a.take i = b.take i := by simpa using hbefore
        exact Nat.add_lt_add_left (ih htail htake ha hb) _

/-- A bit string is known up to index i + 1 by its first i bits and its bit at index i. -/
theorem take_add_one_of_lt {a : Bits} {i : Nat} (h : i < a.length) : a.take (i + 1) = a.take i ++ [a.getD i true] := by
  rw [List.take_add_one, List.getElem?_eq_getElem h, List.getD_eq_getElem _ _ h]
  rfl

/-! ## Head frames of eligible nodes -/

section Contenders

variable {s u : State} {k w i j : Nat}

theorem mem_eligibleSlots_iff : k ∈ eligibleSlots s ↔ k ∈ s.busConnected ∧ eligible s k = true := List.mem_filter

/-- An eligible slot holds a node with a head frame (R190). -/
theorem exists_head_of_eligible (h : eligible s k = true) : ∃ n f, nodeAt s k = some n ∧ n.next = some f := by
  unfold eligible at h
  split at h
  next n hn =>
    split at h
    next f hf => exact ⟨n, f, hn, hf⟩
    next => simp at h
  next => simp at h

/-- The priority value is the number the identifier stands for (R23). -/
theorem val_headId (s : State) (k : Nat) : val (headId s k) = headPriority s k := by
  unfold headId headPriority
  cases headFrame s k with
  | none => rfl
  | some f => exact val_arbitrationId f

theorem length_headId (h : k ∈ eligibleSlots s) : (headId s k).length = 11 := by
  obtain ⟨n, f, hn, hf⟩ := exists_head_of_eligible (mem_eligibleSlots_iff.mp h).2
  simp [headId, headFrame, hn, hf]

/-- Eligible nodes have one identifier exactly if they have one priority. -/
theorem headId_eq_iff (hk : k ∈ eligibleSlots s) (hw : w ∈ eligibleSlots s) :
    headId s k = headId s w ↔ headPriority s k = headPriority s w := by
  rw [← val_headId, ← val_headId]
  exact ⟨congrArg val, eq_of_val_eq ((length_headId hk).trans (length_headId hw).symm)⟩

/-- An identifier of eleven '1' is the priority 2047. -/
theorem headId_eq_ones_iff (hw : w ∈ eligibleSlots s) :
    headId s w = List.replicate 11 true ↔ headPriority s w = 2047 := by
  rw [← val_headId]
  exact ⟨fun h => by rw [h]; decide, fun h => eq_of_val_eq (length_headId hw) (by rw [h]; decide)⟩

/-- A node drives the bit of its identifier; '0' is dominant (R191). -/
theorem dominantAt_eq (s : State) (i k : Nat) : dominantAt s i k = !(headId s k).getD i true := by
  unfold dominantAt headId headFrame headBit
  cases nodeAt s k with
  | none => rfl
  | some n => cases hnext : n.next <;> simp [hnext]

/-- The identifiers do not depend on the statuses. -/
theorem headId_eq_of_sameButStatus (h : SameButStatus s u) : headId u = headId s := by
  have through (t : State) (k : Nat) : headFrame t k = ((nodeAt t k).map noStatus).bind Node.next := by
    unfold headFrame
    cases nodeAt t k <;> rfl
  funext k
  rw [headId, headId, through, h k, ← through]

/-! ## The contenders left at an index (R194) -/

theorem mem_contendersAt_iff :
    k ∈ contendersAt s w i ↔ k ∈ eligibleSlots s ∧ (headId s k).take i = (headId s w).take i := by
  simp [contendersAt]

theorem self_mem_contendersAt (hw : w ∈ eligibleSlots s) (i : Nat) : w ∈ contendersAt s w i :=
  mem_contendersAt_iff.mpr ⟨hw, rfl⟩

theorem contendersAt_ne_singleton (hw : w ∈ eligibleSlots s) (h : contendersAt s w i ≠ [w]) (k : Nat) :
    contendersAt s w i ≠ [k] := by
  intro hk
  obtain rfl : w = k := by simpa [hk] using self_mem_contendersAt hw i
  exact h hk

@[simp] theorem contendersAt_zero (s : State) (w : Nat) : contendersAt s w 0 = eligibleSlots s := by
  simp [contendersAt]

/-- After index i those are left that also agree with w at index i. -/
theorem contendersAt_succ (hw : w ∈ eligibleSlots s) (hi : i < 11) :
    contendersAt s w (i + 1) =
      (contendersAt s w i).filter fun k => (headId s k).getD i true == (headId s w).getD i true := by
  unfold contendersAt
  rw [List.filter_filter]
  refine List.filter_congr fun k hk => ?_
  have hlen (j : Nat) (hj : j ∈ eligibleSlots s) : i < (headId s j).length := by rwa [length_headId hj]
  rw [take_add_one_of_lt (hlen k hk), take_add_one_of_lt (hlen w hw)]
  simp [Bool.and_comm]

/-- Nobody comes back. -/
theorem contendersAt_sublist (h : i ≤ j) : (contendersAt s w j).Sublist (contendersAt s w i) := by
  refine List.monotone_filter_right _ fun k hk => ?_
  rw [beq_iff_eq] at hk ⊢
  have htake := congrArg (List.take i) hk
  rwa [List.take_take, List.take_take, Nat.min_eq_left h] at htake

/-- After the last index those are left that have the priority of w (R199). -/
theorem contendersAt_eleven (hw : w ∈ eligibleSlots s) : contendersAt s w 11 = tiedWith s w := by
  refine List.filter_congr fun k hk => ?_
  have hfull (j : Nat) (hj : j ∈ eligibleSlots s) : (headId s j).take 11 = headId s j :=
    List.take_of_length_le (length_headId hj).le
  simp [hfull k hk, hfull w hw, headId_eq_iff hk hw]

/-- What `lastDom` holds before index i (R193): the last of the contenders left, once a dominant bit has been seen. -/
def lastDomAt (s : State) (w i : Nat) : Option Nat :=
  if (headId s w).take i = List.replicate i true then none else (contendersAt s w i).getLast?

@[simp] theorem lastDomAt_zero (s : State) (w : Nat) : lastDomAt s w 0 = none := by
  simp [lastDomAt]

theorem lastDomAt_eleven (hw : w ∈ eligibleSlots s) :
    lastDomAt s w 11 = if headPriority s w = 2047 then none else (tiedWith s w).getLast? := by
  rw [lastDomAt, List.take_of_length_le (length_headId hw).le, contendersAt_eleven hw]
  exact if_congr (headId_eq_ones_iff hw) rfl rfl

end Contenders

/-! ## A node with the smallest priority value -/

/-- w is eligible and no eligible node has a smaller priority value. -/
abbrev HasSmallest (s : State) (w : Nat) : Prop :=
  w ∈ eligibleSlots s ∧ ∀ k ∈ eligibleSlots s, headPriority s w ≤ headPriority s k

section Smallest

variable {s u : State} {k w i : Nat}

theorem exists_hasSmallest (h : eligibleSlots s ≠ []) : ∃ w, HasSmallest s w := by
  have hne : (eligibleSlots s).toFinset.Nonempty := (List.toFinset_nonempty_iff _).mpr h
  obtain ⟨w, hw, hmin⟩ := Finset.exists_min_image _ (headPriority s) hne
  exact ⟨w, List.mem_toFinset.mp hw, fun k hk => hmin k (List.mem_toFinset.mpr hk)⟩

/-- Where a node with the smallest priority is recessive, so is every contender left. -/
theorem recessive_of_hasSmallest (hw : HasSmallest s w) (hbit : (headId s w).getD i true = true)
    (hk : k ∈ contendersAt s w i) : (headId s k).getD i true = true := by
  obtain ⟨hk, hbefore⟩ := mem_contendersAt_iff.mp hk
  by_contra hdominant
  have hlt : val (headId s k) < val (headId s w) :=
    val_lt_val_of_first_difference ((length_headId hk).trans (length_headId hw.1).symm) hbefore
      (Bool.eq_false_of_not_eq_true hdominant) hbit
  rw [val_headId, val_headId] at hlt
  exact absurd (hw.2 k hk) (Nat.not_le.mpr hlt)

/-- A recessive bit of w: nobody leaves, and `lastDom` stays (R193, step 2c). -/
theorem contendersAt_succ_of_recessive (hw : HasSmallest s w) (hi : i < 11) (hbit : (headId s w).getD i true = true) :
    contendersAt s w (i + 1) = contendersAt s w i := by
  rw [contendersAt_succ hw.1 hi, List.filter_eq_self]
  intro k hk
  rw [recessive_of_hasSmallest hw hbit hk, hbit]
  rfl

theorem lastDomAt_succ_of_recessive (hw : HasSmallest s w) (hi : i < 11) (hbit : (headId s w).getD i true = true) :
    lastDomAt s w (i + 1) = lastDomAt s w i := by
  have hlen : i < (headId s w).length := by rwa [length_headId hw.1]
  have hones :
      (headId s w).take (i + 1) = List.replicate (i + 1) true ↔ (headId s w).take i = List.replicate i true := by
    rw [take_add_one_of_lt hlen, hbit, List.replicate_succ', List.append_cancel_right_eq]
  rw [lastDomAt, contendersAt_succ_of_recessive hw hi hbit]
  exact if_congr hones rfl rfl

/-- A dominant bit of w: those with a dominant bit are left, and the last of them is `lastDom` (R193, step 2b). -/
theorem contendersAt_succ_of_dominant (hw : w ∈ eligibleSlots s) (hi : i < 11)
    (hbit : (headId s w).getD i true = false) :
    contendersAt s w (i + 1) = (contendersAt s w i).filter (dominantAt s i) := by
  rw [contendersAt_succ hw hi, hbit]
  exact List.filter_congr fun k _ => by rw [dominantAt_eq, beq_false]

theorem lastDomAt_succ_of_dominant (hw : w ∈ eligibleSlots s) (hi : i < 11)
    (hbit : (headId s w).getD i true = false) :
    lastDomAt s w (i + 1) = (contendersAt s w (i + 1)).getLast? := by
  have hlen : i < (headId s w).length := by rwa [length_headId hw]
  rw [lastDomAt, if_neg]
  rw [take_add_one_of_lt hlen, hbit, List.replicate_succ']
  simp

end Smallest

/-! ## The quiet bus (R195, R210) -/

section Quiet

variable {s : State} {k : Nat}

theorem statusIs_eq_true_iff {st : Status} :
    statusIs s st k = true ↔ ∃ n, nodeAt s k = some n ∧ n.status = st := by
  unfold statusIs
  cases nodeAt s k <;> simp

theorem busQuiet_eq_false_iff :
    busQuiet s = false ↔ (∃ k ∈ s.busConnected, statusIs s .idle k = false) ∨ s.busOnBus ≠ none := by
  rw [busQuiet, Bool.and_eq_false_iff, List.all_eq_false]
  simp [Option.isSome_iff_ne_none]

/-- On a quiet bus a connected slot holds an Idle node (R195). -/
theorem idle_of_busQuiet (hquiet : busQuiet s = true) (hk : k ∈ s.busConnected) :
    ∃ n, nodeAt s k = some n ∧ n.status = .idle := by
  rw [busQuiet, Bool.and_eq_true, List.all_eq_true] at hquiet
  exact statusIs_eq_true_iff.mp (hquiet.1 k hk)

end Quiet

/-! ## The states of the loop -/

/-- u is the state of the comparator before index i, entered from s, if w has the smallest priority value: those left
are Arbitrating, and every other node record is that of s. -/
structure LeftAt (s : State) (w i : Nat) (u : State) : Prop where
  rest : restOf u = restOf s
  connected : u.busConnected = s.busConnected
  nodes : ∀ k, nodeAt u k =
    if k ∈ contendersAt s w i then (nodeAt s k).map ({ · with status := .arbitrating }) else nodeAt s k

section Loop

variable {s u : State} {k w i : Nat}

theorem sameButStatus_of_leftAt (h : LeftAt s w i u) : SameButStatus s u := by
  intro k
  rw [h.nodes]
  split
  · cases nodeAt s k <;> rfl
  · rfl

/-- The nodes left are the contenders of the comparator (R17). -/
theorem contenders_of_leftAt (hquiet : busQuiet s = true) (h : LeftAt s w i u) :
    contenders u = contendersAt s w i := by
  unfold contenders contendersAt eligibleSlots
  rw [h.connected, List.filter_filter]
  refine List.filter_congr fun k hk => ?_
  obtain ⟨n, hn, hidle⟩ := idle_of_busQuiet hquiet hk
  have hleft : k ∈ contendersAt s w i ↔ ((headId s k).take i == (headId s w).take i && eligible s k) = true := by
    rw [mem_contendersAt_iff, mem_eligibleSlots_iff]
    simp [hk, and_comm]
  rw [Bool.eq_iff_iff, ← hleft, statusIs_eq_true_iff, h.nodes, hn]
  by_cases hin : k ∈ contendersAt s w i <;> simp [hin, hidle]

theorem dominantAt_of_leftAt (h : LeftAt s w i u) (j : Nat) : dominantAt u j = dominantAt s j := by
  funext k
  rw [dominantAt_eq, dominantAt_eq, headId_eq_of_sameButStatus (sameButStatus_of_leftAt h)]

/-- Writing registers that `LeftAt` does not speak of keeps it. -/
theorem LeftAt.of_eq {v : State} (h : LeftAt s w i u) (hrest : restOf v = restOf u)
    (hconnected : v.busConnected = u.busConnected) (hnodes : ∀ k, nodeAt v k = nodeAt u k) : LeftAt s w i v :=
  ⟨hrest.trans h.rest, hconnected.trans h.connected, fun k => (hnodes k).trans (h.nodes k)⟩

theorem leftAt_setBitIndex (h : LeftAt s w i u) (j : Nat) : LeftAt s w i (setBitIndex u j) :=
  h.of_eq rfl rfl fun _ => rfl

theorem restOf_reportBits (i : Nat) (a : List Nat) (s : State) : restOf (reportBits i a s) = restOf s :=
  restOf_forSlots (fun _ _ => restOf_emitNode _) a s

theorem leftAt_reportBits (h : LeftAt s w i u) (j : Nat) (a : List Nat) : LeftAt s w i (reportBits j a u) :=
  h.of_eq (restOf_reportBits j a u) (reportBits_connected j a u) (nodeAt_reportBits j a u)

@[simp] theorem nodeAt_announceStart (e : List Nat) : nodeAt (announceStart e s) k = nodeAt s k := by
  unfold announceStart
  split <;> rfl

/-- The eligible nodes enter the comparator at index 0 (R190). -/
theorem leftAt_enterEligible (s : State) (w : Nat) : LeftAt s w 0 (enterEligible (setWinner s none 0)) := by
  refine ⟨by simp, by simp, fun k => ?_⟩
  rw [enterEligible, nodeAt_announceStart, nodeAt_forSlots_enterStatus, contendersAt_zero]
  rfl

/-- Those that lose at index i are Idle again, as before arbitration (R193, step 2b). -/
theorem leftAt_eliminate_losers (hquiet : busQuiet s = true) (hw : w ∈ eligibleSlots s) (hi : i < 11)
    (hbit : (headId s w).getD i true = false) (h : LeftAt s w i u) :
    LeftAt s w (i + 1)
      (forSlots (enterStatus .idle) ((contendersAt s w i).filter fun k => !dominantAt s i k) u) := by
  refine ⟨?_, ?_, fun k => ?_⟩
  · rw [restOf_forSlots fun _ _ => restOf_enterStatus _, h.rest]
  · rw [forSlots_enterStatus_connected, h.connected]
  · rw [nodeAt_forSlots_enterStatus, h.nodes, contendersAt_succ_of_dominant hw hi hbit]
    simp only [List.mem_filter]
    by_cases hk : k ∈ contendersAt s w i
    · obtain ⟨n, hn, hidle⟩ :=
        idle_of_busQuiet hquiet (mem_eligibleSlots_iff.mp (mem_contendersAt_iff.mp hk).1).1
      cases hdom : dominantAt s i k <;> simp [hk, hn, ← hidle]
    · simp [hk]

/-- One index of the comparator (R193). -/
theorem leftAt_compareIndex (hquiet : busQuiet s = true) (hw : HasSmallest s w) (hi : i < 11) (h : LeftAt s w i u) :
    LeftAt s w (i + 1) (compareIndex i (contendersAt s w i) (lastDomAt s w i) u).1 ∧
      (compareIndex i (contendersAt s w i) (lastDomAt s w i) u).2 = lastDomAt s w (i + 1) := by
  have hreport := leftAt_reportBits h i (contendersAt s w i)
  unfold compareIndex eliminate
  rw [dominantAt_of_leftAt hreport]
  cases hbit : (headId s w).getD i true with
  | true =>
    have nobody : (contendersAt s w i).filter (dominantAt s i) = [] := by
      rw [List.filter_eq_nil_iff]
      intro k hk
      rw [dominantAt_eq, recessive_of_hasSmallest hw hbit hk]
      simp
    rw [if_pos nobody, lastDomAt_succ_of_recessive hw hi hbit]
    refine ⟨⟨hreport.rest, hreport.connected, ?_⟩, rfl⟩
    rw [contendersAt_succ_of_recessive hw hi hbit]
    exact hreport.nodes
  | false =>
    have hleft := contendersAt_succ_of_dominant hw.1 hi hbit
    have somebody : (contendersAt s w i).filter (dominantAt s i) ≠ [] :=
      List.ne_nil_of_mem (hleft ▸ self_mem_contendersAt hw.1 (i + 1))
    rw [if_neg somebody, lastDomAt_succ_of_dominant hw.1 hi hbit, hleft]
    exact ⟨leftAt_eliminate_losers hquiet hw.1 hi hbit hreport, rfl⟩

/-! ## The loop -/

/-- Step 2a: a contender alone stops the loop. -/
theorem arbLoop_cons_of_alone {is : List Nat} {ld : Option Nat} (h : contenders u = [k]) :
    arbLoop (i :: is) ld u = ⟨setWinner (setBitIndex u i) (some k) i, ld, true⟩ := by
  rw [arbLoop, h]

/-- Steps 2b and 2c: several contenders are compared, and the loop goes on. -/
theorem arbLoop_cons_of_several {is : List Nat} {ld : Option Nat} (hsome : contenders u ≠ [])
    (hseveral : ∀ k, contenders u ≠ [k]) :
    arbLoop (i :: is) ld u =
      arbLoop is (compareIndex i (contenders u) ld (setBitIndex u i)).2
        (compareIndex i (contenders u) ld (setBitIndex u i)).1 := by
  rw [arbLoop]
  split
  next k hk => exact absurd hk (hseveral k)
  next hnone => exact absurd hnone hsome
  next => rfl

/-- w is the only contender left before index j, and was not at an earlier index. -/
def AloneFirstAt (s : State) (w j : Nat) : Prop :=
  contendersAt s w j = [w] ∧ ∀ m < j, contendersAt s w m ≠ [w]

/-- How the comparator ends in a round from s if w has the smallest priority value: at the first index at which w is
alone, or after the last index (R193). -/
def EndsFor (s : State) (w : Nat) (r : ArbRun) : Prop :=
  (∃ v j, j < 11 ∧ LeftAt s w j v ∧ AloneFirstAt s w j ∧
    r = ⟨setWinner (setBitIndex v j) (some w) j, lastDomAt s w j, true⟩) ∨
  (∃ v, LeftAt s w 11 v ∧ (∀ m < 11, contendersAt s w m ≠ [w]) ∧ r = ⟨setBitIndex v 11, lastDomAt s w 11, false⟩)

/-- From any index on at which w has not been alone before. -/
theorem endsFor_arbLoop (hquiet : busQuiet s = true) (hw : HasSmallest s w) {n : Nat} (hn : i + n = 11)
    (h : LeftAt s w i u) (hbefore : ∀ m < i, contendersAt s w m ≠ [w]) :
    EndsFor s w (arbLoop (List.range' i n) (lastDomAt s w i) u) := by
  induction n generalizing i u with
  | zero =>
    obtain rfl : i = 11 := hn
    exact Or.inr ⟨u, h, hbefore, rfl⟩
  | succ n ih =>
    have hi : i < 11 := by omega
    have hcont : contenders u = contendersAt s w i := contenders_of_leftAt hquiet h
    rw [List.range'_succ]
    by_cases halone : contendersAt s w i = [w]
    · exact Or.inl ⟨u, i, hi, h, ⟨halone, hbefore⟩, arbLoop_cons_of_alone (hcont.trans halone)⟩
    · have hsome : contenders u ≠ [] := hcont ▸ List.ne_nil_of_mem (self_mem_contendersAt hw.1 i)
      have hseveral : ∀ k, contenders u ≠ [k] := hcont ▸ contendersAt_ne_singleton hw.1 halone
      rw [arbLoop_cons_of_several hsome hseveral, hcont]
      obtain ⟨hnext, hlast⟩ := leftAt_compareIndex hquiet hw hi (leftAt_setBitIndex h i)
      rw [hlast]
      refine ih (by omega) hnext fun m hm => ?_
      obtain hm | rfl := Nat.lt_succ_iff_lt_or_eq.mp hm
      · exact hbefore m hm
      · exact halone

/-- The loop that arbitration runs. -/
theorem endsFor_arbLoop_enterEligible (hquiet : busQuiet s = true) (hw : HasSmallest s w) :
    EndsFor s w (arbLoop (List.range Config.idBits) none (enterEligible (setWinner s none 0))) := by
  rw [List.range_eq_range', ← lastDomAt_zero s w]
  exact endsFor_arbLoop hquiet hw rfl (leftAt_enterEligible s w) fun m hm => absurd hm (Nat.not_lt_zero m)

end Loop

/-! ## The end of arbitration (R195, R196, R199) -/

section Outcome

variable {s t : State} {k w : Nat} {ld : Option Nat}

/-- One contender left after the last index wins at 11 (R196). -/
theorem exhaust_of_alone (h : contenders s = [k]) : exhaust ld s = .next (setWinner s (some k) 11) := by
  rw [exhaust, h]

/-- Several contenders left after the last index have one identifier, and the policy decides (R199). -/
theorem exhaust_of_several (hsome : contenders s ≠ []) (hseveral : ∀ k, contenders s ≠ [k]) :
    (s.cfgDupIdPolicy = .refuse → exhaust ld s = .refused .duplicateIds) ∧
      (s.cfgDupIdPolicy = .lastDominant → exhaust ld s = .next (setWinner s ld 11)) := by
  unfold exhaust
  split
  next hnone => exact absurd hnone hsome
  next k hk => exact absurd hk (hseveral k)
  next => exact ⟨fun hpolicy => by rw [hpolicy], fun hpolicy => by rw [hpolicy]⟩

@[simp] theorem announceWinner_seqWinner : (announceWinner s).seqWinner = s.seqWinner := by
  unfold announceWinner
  split <;> simp

@[simp] theorem announceWinner_seqWonAt : (announceWinner s).seqWonAt = s.seqWonAt := by
  unfold announceWinner
  split <;> simp

/-- A node that alone has the smallest priority value wins, at the first index at which it is the only contender. -/
theorem arbitrate_of_alone (hquiet : busQuiet s = true) (hw : HasSmallest s w) (halone : tiedWith s w = [w]) :
    ∃ v j, j ≤ 11 ∧ LeftAt s w j v ∧ AloneFirstAt s w j ∧
      arbitrate s = .next (announceWinner (setWinner (setBitIndex v j) (some w) j)) := by
  obtain ⟨v, j, hj, hleft, hfirst, hrun⟩ | ⟨v, hleft, hbefore, hrun⟩ := endsFor_arbLoop_enterEligible hquiet hw
  · exact ⟨v, j, hj.le, hleft, hfirst, by rw [arbitrate, hrun]; rfl⟩
  · have hend : contendersAt s w 11 = [w] := (contendersAt_eleven hw.1).trans halone
    have hcont : contenders (setBitIndex v 11) = [w] :=
      (contenders_of_leftAt hquiet (leftAt_setBitIndex hleft 11)).trans hend
    refine ⟨v, 11, le_rfl, hleft, ⟨hend, hbefore⟩, ?_⟩
    rw [arbitrate, hrun, finishArbitration, if_neg Bool.false_ne_true, exhaust_of_alone hcont, andThen_next]

/-- Where several nodes share the smallest priority value, the policy decides. -/
theorem arbitrate_of_tied (hquiet : busQuiet s = true) (hw : HasSmallest s w) (htied : tiedWith s w ≠ [w]) :
    (s.cfgDupIdPolicy = .refuse → arbitrate s = .refused .duplicateIds) ∧
      (s.cfgDupIdPolicy = .lastDominant → ∃ v, LeftAt s w 11 v ∧
        arbitrate s = .next (announceWinner (setWinner (setBitIndex v 11) (lastDomAt s w 11) 11))) := by
  have hend : contendersAt s w 11 ≠ [w] := contendersAt_eleven hw.1 ▸ htied
  have hsomebody : contendersAt s w 11 ≠ [] := List.ne_nil_of_mem (self_mem_contendersAt hw.1 11)
  obtain ⟨v, j, hj, -, hfirst, -⟩ | ⟨v, hleft, -, hrun⟩ := endsFor_arbLoop_enterEligible hquiet hw
  · have hsub : (contendersAt s w 11).Sublist [w] := hfirst.1 ▸ contendersAt_sublist hj.le
    obtain hnone | halone := List.sublist_singleton.mp hsub
    · exact absurd hnone hsomebody
    · exact absurd halone hend
  · have hcont : contenders (setBitIndex v 11) = contendersAt s w 11 :=
      contenders_of_leftAt hquiet (leftAt_setBitIndex hleft 11)
    have hpolicy : (setBitIndex v 11).cfgDupIdPolicy = s.cfgDupIdPolicy := congrArg Rest.cfgDupIdPolicy hleft.rest
    have hsome : contenders (setBitIndex v 11) ≠ [] := hcont ▸ hsomebody
    have hseveral : ∀ k, contenders (setBitIndex v 11) ≠ [k] := hcont ▸ contendersAt_ne_singleton hw.1 hend
    obtain ⟨hrefuse, hlast⟩ := exhaust_of_several (ld := lastDomAt s w 11) hsome hseveral
    rw [hpolicy] at hrefuse hlast
    rw [arbitrate, hrun, finishArbitration, if_neg Bool.false_ne_true]
    exact ⟨fun h => by rw [hrefuse h, andThen_refused], fun h => ⟨v, hleft, by rw [hlast h, andThen_next]⟩⟩

/-- Among distinct priorities a node is tied with itself only. -/
theorem tiedWith_of_distinctHeads (hnodup : s.busConnected.Nodup) (hdistinct : DistinctHeads s)
    (hw : w ∈ eligibleSlots s) : tiedWith s w = [w] := by
  have only_itself : tiedWith s w = (eligibleSlots s).filter (· == w) := by
    refine List.filter_congr fun k hk => ?_
    rw [Bool.eq_iff_iff, beq_iff_eq, beq_iff_eq]
    exact ⟨hdistinct k hk w hw, fun h => h ▸ rfl⟩
  have hcount : (eligibleSlots s).count w = 1 := List.count_eq_one_of_mem (hnodup.filter _) hw
  rw [only_itself, List.filter_beq, hcount]
  rfl

/-- Two that share the smallest priority value have the smallest, and neither is alone. -/
theorem hasSmallest_of_tiedSmallest {k' : Nat} (h : TiedSmallest s k k') : HasSmallest s k ∧ tiedWith s k ≠ [k] := by
  obtain ⟨hk, hk', hne, hsame, hmin⟩ := h
  refine ⟨⟨hk, hmin⟩, fun halone => hne ?_⟩
  have htied : k' ∈ tiedWith s k := List.mem_filter.mpr ⟨hk', by simp [hsame]⟩
  simpa [halone, eq_comm] using htied

/-- ARBITRATE on a quiet bus returns the winner registers (R195). -/
theorem exec_arbitrate_of_next (hquiet : busQuiet s = true) (h : arbitrate s = .next t) :
    exec .arbitrate s = .next (setResult t (.arbitration t.seqWinner t.seqWonAt)) := by
  rw [exec, execArbitrate, if_pos hquiet, h, andThen_next]

theorem exec_arbitrate_of_refused {r : Refusal} (hquiet : busQuiet s = true) (h : arbitrate s = .refused r) :
    exec .arbitrate s = .refused r := by
  rw [exec, execArbitrate, if_pos hquiet, h, andThen_refused]

end Outcome

/-! ## Refusals of a round and of the driver's operations -/

section Refusals

variable {s : State} {k k' : Nat} {r : Refusal}

theorem round_of_not_setupDone (h : s.drvSetupDone = false) : round s = .refused .notSetUp := if_pos h

theorem round_of_precondition_unmet (hsetup : s.drvSetupDone = true)
    (h : busQuiet s = false ∨ s.seqPhase ≠ .idle) : round s = .refused .roundPrecondition := by
  have hunmet : ¬ (busQuiet s && s.seqPhase == .idle) = true := by
    rw [Bool.and_eq_true, beq_iff_eq]
    rintro ⟨hquiet, hphase⟩
    simp [hquiet, hphase] at h
  rw [round, if_neg (by simp [hsetup]), if_neg hunmet]

/-- A tie under policy `refuse` refuses the whole round (R199, X6). -/
theorem round_of_tiedSmallest (hready : RoundReady s) (hpolicy : s.cfgDupIdPolicy = .refuse)
    (htied : TiedSmallest s k k') : round s = .refused .duplicateIds := by
  obtain ⟨hsetup, hquiet, hphase, -⟩ := hready
  obtain ⟨hsmallest, hseveral⟩ := hasSmallest_of_tiedSmallest htied
  have hrefused : arbitrate (setPhase (setPhase s .eligibility) .arbitration) = .refused .duplicateIds :=
    (arbitrate_of_tied (s := setPhase (setPhase s .eligibility) .arbitration) hquiet hsmallest hseveral).1 hpolicy
  rw [round, if_neg (by simp [hsetup]), if_pos (by simp [hquiet, hphase]), roundBody, hrefused, andThen_refused]

theorem driverStep_of_round_refused (h : round (setBusTick s s.drvTick) = .refused r) :
    driverStep s = .refused r := by
  rw [driverStep, h, andThen_refused]

theorem exec_step_of_driverStep_refused (h : driverStep s = .refused r) : exec .step s = .refused r := by
  rw [exec, execStep, h, andThen_refused]

theorem exec_run_of_driverStep_refused (hsetup : s.drvSetupDone = true) (hruns : runReturns s = false)
    (h : driverStep s = .refused r) : exec .run s = .refused r := by
  rw [exec, execRun, if_neg (by simp [hsetup]), if_neg (by simp [hruns]), h, andThen_refused]

/-- A connected node with a head frame keeps `RUN` going, if no request stops it (R244). -/
theorem runReturns_of_head {n : Node} {f : Frame} (hk : k ∈ s.busConnected) (hn : nodeAt s k = some n)
    (hf : n.next = some f) (hpause : s.drvPauseReq = false) (hstop : s.drvStopReq = false) :
    runReturns s = false := by
  have hgoes : stopCondition s = false := by
    rw [stopCondition, List.all_eq_false]
    exact ⟨k, hk, by simp [hn, hf]⟩
  rw [runReturns, hgoes, hpause, hstop]
  rfl

end Refusals

/-! ## The obligations -/

/-- Settles O28: a node with the smallest priority exists and is tied with nobody, so it is alone at some index. -/
theorem lowestPriorityValueWins : Obligations.LowestPriorityValueWins := by
  intro s hquiet hnodup hdistinct hsome
  obtain ⟨w, hw⟩ := exists_hasSmallest hsome
  obtain ⟨v, j, -, -, -, hnext⟩ :=
    arbitrate_of_alone hquiet hw (tiedWith_of_distinctHeads hnodup hdistinct hw.1)
  exact ⟨w, _, exec_arbitrate_of_next hquiet hnext, by simp, by simp, hw⟩

/-- Settles O32: nodes that share the smallest priority are never told apart, so the loop is exhausted, with
`lastDom` the last of them once a '0' of their identifier has been seen, which 2047 has not. -/
theorem duplicateIdentifiers : Obligations.DuplicateIdentifiers := by
  intro s k k' hquiet _ htied
  obtain ⟨hsmallest, hseveral⟩ := hasSmallest_of_tiedSmallest htied
  obtain ⟨hrefuse, hlast⟩ := arbitrate_of_tied hquiet hsmallest hseveral
  refine ⟨fun hpolicy => exec_arbitrate_of_refused hquiet (hrefuse hpolicy), fun hpolicy => ?_⟩
  obtain ⟨v, -, hnext⟩ := hlast hpolicy
  exact ⟨_, exec_arbitrate_of_next hquiet hnext, by simp [lastDomAt_eleven hsmallest.1], by simp, by simp⟩

/-- Settles O33: STEP and RUN are refused where the round they take is, and an eligible node is one for which RUN
goes on. -/
theorem roundRefusals : Obligations.RoundRefusals := by
  refine ⟨fun s hunmet => ?_, fun s hsetup => ?_, fun s hsetup hunmet => ?_, fun s k k' hready hpolicy => ?_⟩
  · exact if_neg (Bool.eq_false_iff.mp (busQuiet_eq_false_iff.mpr hunmet))
  · have hround := round_of_not_setupDone hsetup
    refine ⟨by rw [exec, execRound, hround, andThen_refused], ?_, if_pos hsetup⟩
    exact exec_step_of_driverStep_refused
      (driverStep_of_round_refused (round_of_not_setupDone (s := setBusTick s s.drvTick) hsetup))
  · have hblocked : busQuiet s = false ∨ s.seqPhase ≠ .idle := by
      rwa [busQuiet_eq_false_iff, or_assoc]
    have hround := round_of_precondition_unmet hsetup hblocked
    have hstep := driverStep_of_round_refused
      (round_of_precondition_unmet (s := setBusTick s s.drvTick) hsetup hblocked)
    exact ⟨by rw [exec, execRound, hround, andThen_refused], exec_step_of_driverStep_refused hstep,
      fun hruns => exec_run_of_driverStep_refused hsetup hruns hstep⟩
  · refine ⟨fun htied => ?_, fun htied => ?_⟩
    · rw [exec, execRound, round_of_tiedSmallest hready hpolicy htied, andThen_refused]
    · have hstep := driverStep_of_round_refused
        (round_of_tiedSmallest (s := setBusTick s s.drvTick) hready hpolicy htied)
      refine ⟨exec_step_of_driverStep_refused hstep, fun hpause hstop => ?_⟩
      obtain ⟨hconnected, heligible⟩ := mem_eligibleSlots_iff.mp htied.1
      obtain ⟨n, f, hn, hf⟩ := exists_head_of_eligible heligible
      exact exec_run_of_driverStep_refused hready.1 (runReturns_of_head hconnected hn hf hpause hstop) hstep

end Sys2Proof.Machine
end

section
/-!
The family of 44_sequencer.md: what a round puts on the bus (R215) and that it always completes (R212). The bits of
arbitration are read off the contenders left at an index, of which the winner has the smallest priority value. A round
completes because its winner is an eligible node that does not receive its own frame, and it ends ready for the next one
because no step empties a slot or connects one (`wiring`).
-/

namespace Sys2Proof.Machine

/-! ## The bits on the bus (R191, R215) -/

section BusBits

variable {s : State} {w i : Nat}

theorem hasSmallest_of_isSelected (h : IsSelected s w) : HasSmallest s w := by
  obtain ⟨hw, hless⟩ | ⟨-, hw, hmin, -⟩ := h
  · refine ⟨hw, fun k hk => ?_⟩
    by_cases hkw : k = w
    · exact hkw ▸ le_rfl
    · exact (hless k hk hkw).le
  · exact ⟨hw, hmin⟩

/-- The wired-AND of the contenders left is the bit of the node with the smallest priority value (R191, R194). -/
theorem busBit_of_hasSmallest (hw : HasSmallest s w) (i : Nat) : busBit s w i = (headId s w).getD i true := by
  cases hbit : (headId s w).getD i true with
  | true => exact List.all_eq_true.mpr fun k hk => recessive_of_hasSmallest hw hbit hk
  | false => exact List.all_eq_false.mpr ⟨w, self_mem_contendersAt hw.1 i, by rw [hbit]; decide⟩

/-- The bus carries the identifier of the node with the smallest priority value, as far as it is compared. -/
theorem busBits_eq_take_headId (hw : HasSmallest s w) (hi : i ≤ 11) :
    (List.range i).map (busBit s w) = (headId s w).take i := by
  induction i with
  | zero => rfl
  | succ i ih =>
    have hlen : i < (headId s w).length := by rwa [length_headId hw.1]
    rw [List.range_succ, List.map_append, ih (Nat.le_of_succ_le hi), take_add_one_of_lt hlen, List.map_singleton,
      busBit_of_hasSmallest hw]

theorem wonAtOf_le (s : State) (w : Nat) : wonAtOf s w ≤ 11 := List.findIdx_le_length

/-- The fields of the trace, one after the other: leaving out the empty ones leaves out no bit (R214). -/
theorem flatten_traceFields (f : Frame) (wonAt : Nat) :
    ((traceFields f wonAt).map Prod.snd).flatten =
      (arbitrationId f).drop wonAt ++ stuffBit f ++ controlBits ++ dataBits f ++ crcBits f ++ trailerBits := by
  have hfilter (l : List (FieldName × Bits)) :
      ((l.filter fun p => !p.2.isEmpty).map Prod.snd).flatten = (l.map Prod.snd).flatten := by
    rw [← List.flatten_filter_not_isEmpty (L := l.map Prod.snd), List.filter_map]
    rfl
  rw [traceFields, hfilter]
  simp [controlBits, trailerBits]

/-- A frame string without its length bits (R82). -/
theorem frameBits_without_dlcString (f : Frame) :
    (frameBits f).take (14 + (stuffBit f).length) ++ (frameBits f).drop (18 + (stuffBit f).length) =
      arbitrationId f ++ stuffBit f ++ controlBits ++ dataBits f ++ crcBits f ++ trailerBits := by
  have hparts : frameBits f =
      (arbitrationId f ++ stuffBit f ++ controlBits) ++ (dlcString f ++ (dataBits f ++ crcBits f ++ trailerBits)) := by
    simp [frameBits, controlBits, trailerBits]
  have hlen : (arbitrationId f ++ stuffBit f ++ controlBits).length = 14 + (stuffBit f).length := by
    simp [controlBits, controlBit]
    omega
  rw [hparts, List.take_left' hlen, show 18 + (stuffBit f).length = 14 + (stuffBit f).length + 4 by omega,
    ← List.drop_drop, List.drop_left' hlen, List.drop_left' (length_dlcString f)]
  simp

end BusBits

/-! ## Which slots hold a node, and which are connected -/

/-- What a round keeps of the slots: whether they hold a node, and `bus.connected`, which only `EVICT` changes. -/
def wiring (s : State) : (Nat → Bool) × List Nat := (fun k => (nodeAt s k).isSome, s.busConnected)

section Wiring

variable {s t : State} {k w : Nat}

theorem wiring_eq_iff :
    wiring t = wiring s ↔ (∀ k, (nodeAt t k).isSome = (nodeAt s k).isSome) ∧ t.busConnected = s.busConnected := by
  simp [wiring, funext_iff]

@[simp] theorem wiring_emit (e : EventKind) : wiring (emit s e) = wiring s := rfl

@[simp] theorem wiring_setPhase (p : Phase) : wiring (setPhase s p) = wiring s := rfl

@[simp] theorem wiring_setOnBus (f : Option Frame) : wiring (setOnBus s f) = wiring s := rfl

@[simp] theorem wiring_setAckSeen (b : Bool) : wiring (setAckSeen s b) = wiring s := rfl

@[simp] theorem wiring_emitNode (mk : Node → EventKind) : wiring (emitNode s k mk) = wiring s := by
  simp [wiring]

@[simp] theorem wiring_updateNode (f : Node → Node) : wiring (updateNode s k f) = wiring s := by
  refine wiring_eq_iff.mpr ⟨fun j => ?_, updateNode_busConnected s k f⟩
  rw [nodeAt_updateNode]
  split
  next hj => rw [Option.isSome_map, hj]
  next => rfl

@[simp] theorem wiring_enterStatus (st : Status) : wiring (enterStatus st s k) = wiring s := by
  simp [enterStatus]

@[simp] theorem wiring_receiveStep : wiring (receiveStep s k) = wiring s := by
  unfold receiveStep receive takeError
  split
  · split <;> simp
  · rfl

/-- Steps 5 and 6 neither empty a slot nor change `bus.connected` (R216 to R220). -/
@[simp] theorem wiring_acknowledgment (ls : List Nat) : wiring (acknowledgment w ls s) = wiring s := by
  rw [acknowledgment, reportAck, wiring_emitNode, forSlots_field wiring fun _ _ => wiring_receiveStep]
  simp

@[simp] theorem wiring_outcome : wiring (outcome w s) = wiring s := by
  unfold outcome
  split
  · simp [ackSuccess]
  · simp [reportFailure, ackFailure, takeError]

/-- Step 7 empties no slot (R222). -/
theorem isSome_nodeAt_evictionCheck : (nodeAt (evictionCheck w s) k).isSome = (nodeAt s k).isSome := by
  rw [nodeAt_evictionCheck]
  split
  next h => rw [Option.isSome_map, h.2]
  next => rfl

/-- Step 7 connects no slot (R222). -/
theorem evictionCheck_connected_sublist : (evictionCheck w s).busConnected.Sublist s.busConnected := by
  rw [evictionCheck_connected]
  split
  · exact List.filter_sublist
  · exact List.Sublist.refl _

/-- Step 4 changes statuses and the frame on the bus, not the wiring (R213, R214). -/
theorem wiring_transmission {ls : List Nat} (h : transmission w ls s = .next t) : wiring t = wiring s := by
  obtain ⟨n, f, -, -, -, rfl⟩ := transmission_eq_next_iff.mp h
  rw [emitFields_field wiring fun _ _ => wiring_emit _, wiring_setOnBus,
    forSlots_field wiring fun _ _ => wiring_enterStatus _]

/-- Steps 4 to 7 of a round empty no slot and connect none (R213 to R222). -/
theorem deliver_keeps_slots (h : deliver w s = .next t) :
    (∀ k, (nodeAt t k).isSome = (nodeAt s k).isSome) ∧ t.busConnected.Sublist s.busConnected := by
  unfold deliver deliverTo at h
  obtain ⟨u, hu, ht⟩ := andThen_eq_next_iff.mp h
  obtain rfl := by simpa using ht
  have hwiring (ls : List Nat) : wiring (outcome w (acknowledgment w ls u)) = wiring s := by
    rw [wiring_outcome, wiring_acknowledgment, wiring_transmission hu, wiring_enterStatus, wiring_setPhase]
  obtain ⟨hsome, hconnected⟩ := wiring_eq_iff.mp (hwiring _)
  exact ⟨fun k => isSome_nodeAt_evictionCheck.trans (hsome k), hconnected ▸ evictionCheck_connected_sublist⟩

end Wiring

/-! ## Arbitration completes (R195 to R200) -/

section Completes

variable {s t : State} {k w i : Nat} {n : Node} {f : Frame} {ld : Option Nat}

/-- Without contenders the comparator runs through all indices and changes nothing else (R200). -/
theorem arbLoop_of_nobody (is : List Nat) (h : contenders s = []) :
    arbLoop is ld s = ⟨setBitIndex s 11, ld, false⟩ := by
  induction is generalizing s with
  | nil => rfl
  | cons i is ih =>
    rw [arbLoop, h]
    exact ih (s := setBitIndex s i) h

theorem exhaust_of_nobody (h : contenders s = []) : ∃ t, exhaust ld s = .next t ∧ t.seqWinner = none := by
  rw [exhaust, h]
  exact ⟨_, rfl, rfl⟩

/-- With nobody eligible arbitration has no winner (R200). -/
theorem arbitrate_of_nobody (hquiet : busQuiet s = true) (h : eligibleSlots s = []) :
    ∃ t, arbitrate s = .next t ∧ t.seqWinner = none := by
  have hnobody : contenders (enterEligible (setWinner s none 0)) = [] := by
    rw [contenders_of_leftAt hquiet (leftAt_enterEligible s 0), contendersAt_zero, h]
  obtain ⟨u, hend, hwinner⟩ := exhaust_of_nobody (s := setBitIndex _ 11) (ld := none) hnobody
  refine ⟨announceWinner u, ?_, announceWinner_seqWinner.trans hwinner⟩
  rw [arbitrate, arbLoop_of_nobody _ hnobody, finishArbitration, if_neg Bool.false_ne_true, hend, andThen_next]

/-- `lastDom` is one of the eligible nodes (R193). -/
theorem mem_eligibleSlots_of_lastDomAt (h : lastDomAt s w i = some k) : k ∈ eligibleSlots s := by
  unfold lastDomAt at h
  split at h
  next => simp at h
  next => exact (mem_contendersAt_iff.mp (List.mem_of_getLast? h)).1

/-- Arbitration on a quiet bus completes, without duplicate identifiers or under `last_dominant`, and a winner was
eligible (R195, R199). -/
theorem arbitrate_completes (hquiet : busQuiet s = true) (hnodup : s.busConnected.Nodup)
    (hpolicy : s.cfgDupIdPolicy = .lastDominant ∨ DistinctHeads s) :
    ∃ t, arbitrate s = .next t ∧ ∀ w, t.seqWinner = some w → w ∈ eligibleSlots s := by
  by_cases hnobody : eligibleSlots s = []
  · obtain ⟨t, hnext, hwinner⟩ := arbitrate_of_nobody hquiet hnobody
    exact ⟨t, hnext, by simp [hwinner]⟩
  · obtain ⟨w, hw⟩ := exists_hasSmallest hnobody
    by_cases halone : tiedWith s w = [w]
    · obtain ⟨v, j, -, -, -, hnext⟩ := arbitrate_of_alone hquiet hw halone
      refine ⟨_, hnext, fun k hk => ?_⟩
      obtain rfl : w = k := by simpa using hk
      exact hw.1
    · have hlast : s.cfgDupIdPolicy = .lastDominant :=
        hpolicy.resolve_right fun hdistinct => halone (tiedWith_of_distinctHeads hnodup hdistinct hw.1)
      obtain ⟨v, -, hnext⟩ := (arbitrate_of_tied hquiet hw halone).2 hlast
      refine ⟨_, hnext, fun k hk => mem_eligibleSlots_of_lastDomAt (w := w) (i := 11) ?_⟩
      simpa using hk

/-! ## The delivery completes (R213, R214) -/

theorem not_mem_activeListeners_self (hn : nodeAt s w = some n) (h : n.id ∉ n.listeners) :
    w ∉ activeListeners s w := by
  simp [activeListeners, hn, h]

/-- The winner is still Sending after the listeners have entered Receiving, if it is none of them. -/
theorem transmission_completes {ls : List Nat} (hn : nodeAt s w = some n) (hsending : n.status = .sending)
    (hf : n.next = some f) (hw : w ∉ ls) : ∃ t, transmission w ls s = .next t :=
  ⟨_, transmission_eq_next_iff.mpr ⟨n, f, by rw [nodeAt_forSlots_enterStatus, if_neg hw, hn], hsending, hf, rfl⟩⟩

/-- A node that does not listen to itself delivers its head frame (R33, R213). -/
theorem deliver_completes (hn : nodeAt s w = some n) (hf : n.next = some f) (h : n.id ∉ n.listeners) :
    ∃ t, deliver w s = .next t := by
  have hsending :
      nodeAt (enterStatus .sending (setPhase s .transmission) w) w = some { n with status := .sending } := by
    rw [nodeAt_enterStatus, if_pos rfl, nodeAt_setPhase, hn, Option.map_some]
  obtain ⟨t, ht⟩ := transmission_completes hsending rfl hf (not_mem_activeListeners_self hsending h)
  exact ⟨_, andThen_eq_next_iff.mpr ⟨t, ht, rfl⟩⟩

end Completes

/-! ## The round completes and is ready again (R210, R212) -/

/-- Every connected slot holds a node, and none is connected twice (R40). -/
structure Wired (s : State) : Prop where
  occupied : ∀ k ∈ s.busConnected, (nodeAt s k).isSome = true
  nodup : s.busConnected.Nodup

section Round

variable {s t : State} {k w : Nat} {n : Node}

theorem Wired.of_slots (h : Wired s) (hsome : ∀ k, (nodeAt t k).isSome = (nodeAt s k).isSome)
    (hconnected : t.busConnected.Sublist s.busConnected) : Wired t :=
  ⟨fun k hk => (hsome k).trans (h.occupied k (hconnected.subset hk)), hconnected.nodup h.nodup⟩

theorem wired_of_roundReady (h : RoundReady s) : Wired s := by
  obtain ⟨-, hquiet, -, hnodup⟩ := h
  refine ⟨fun k hk => ?_, hnodup⟩
  obtain ⟨n, hn, -⟩ := idle_of_busQuiet hquiet hk
  simp [hn]

theorem wired_of_arbitrate (harb : arbitrate s = .next t) (h : Wired s) : Wired t := by
  obtain ⟨hsame, hconnected⟩ := arbitrate_keeps harb
  exact h.of_slots (fun k => by simpa using congrArg Option.isSome (hsame k)) (hconnected ▸ List.Sublist.refl _)

/-- Step 8 meets the preconditions of the next round (R224). -/
theorem roundReady_roundReset (hsetup : (roundReset s).drvSetupDone = true) (h : Wired s) :
    RoundReady (roundReset s) := by
  refine ⟨hsetup, ?_, rfl, roundReset_connected.symm ▸ h.nodup⟩
  rw [busQuiet, Bool.and_eq_true, List.all_eq_true]
  refine ⟨fun k hk => ?_, rfl⟩
  rw [roundReset_connected] at hk
  obtain ⟨n, hn⟩ := Option.isSome_iff_exists.mp (h.occupied k hk)
  exact statusIs_eq_true_iff.mpr ⟨{ n with status := .idle }, by rw [nodeAt_roundReset, if_pos hk, hn]; rfl, rfl⟩

theorem exists_node_of_sameButStatus (h : SameButStatus s t) (hn : nodeAt s k = some n) :
    ∃ m, nodeAt t k = some m ∧ noStatus m = noStatus n :=
  Option.map_eq_some_iff.mp ((h k).trans (hn ▸ rfl))

/-- The winner of arbitration, if there is one, can deliver its frame. -/
theorem deliver_completes_of_arbitrate (harb : arbitrate s = .next t) (hself : NoSelfListeners s)
    (hw : w ∈ eligibleSlots s) : ∃ u, deliver w t = .next u := by
  obtain ⟨hconnected, heligible⟩ := mem_eligibleSlots_iff.mp hw
  obtain ⟨n, f, hn, hf⟩ := exists_head_of_eligible heligible
  obtain ⟨m, hm, hsame⟩ := exists_node_of_sameButStatus (arbitrate_keeps harb).1 hn
  have hid : m.id = n.id := (congrArg Node.id hsame :)
  have hlisteners : m.listeners = n.listeners := (congrArg Node.listeners hsame :)
  refine deliver_completes hm ((congrArg Node.next hsame).trans hf) ?_
  rw [hid, hlisteners]
  exact hself w hconnected n hn

/-- A round completes with step 8, its slots still wired. -/
theorem roundBody_completes (hready : RoundReady s) (hself : NoSelfListeners s)
    (hpolicy : s.cfgDupIdPolicy = .lastDominant ∨ DistinctHeads s) :
    ∃ u, roundBody s = .next (roundReset u) ∧ Wired u := by
  have hwired := wired_of_roundReady hready
  obtain ⟨-, hquiet, -, hnodup⟩ := hready
  obtain ⟨u, harb, hwinner⟩ :=
    arbitrate_completes (s := setPhase (setPhase s .eligibility) .arbitration) hquiet hnodup hpolicy
  have hu : Wired u := wired_of_arbitrate harb ⟨hwired.occupied, hnodup⟩
  rw [roundBody, harb, andThen_next]
  cases hw : u.seqWinner with
  | none => exact ⟨u, rfl, hu⟩
  | some w =>
    obtain ⟨v, hv⟩ := deliver_completes_of_arbitrate harb hself (hwinner w hw)
    obtain ⟨hsome, hconnected⟩ := deliver_keeps_slots hv
    exact ⟨v, by simp [hv], hu.of_slots hsome hconnected⟩

theorem round_of_roundReady (h : RoundReady s) : round s = roundBody s := by
  obtain ⟨hsetup, hquiet, hphase, -⟩ := h
  rw [round, if_neg (by simp [hsetup]), if_pos (by simp [hquiet, hphase])]

end Round

/-! ## The obligations -/

/-- Settles O37: before the winner is known the bus carries the first bits of its identifier, since it has the smallest
priority value; the fields of the trace carry the other bits and all else but the length. -/
theorem busCarriesFrameWithoutDlc : Obligations.BusCarriesFrameWithoutDlc := by
  intro s w f hselected hhead
  have hid : headId s w = arbitrationId f := by simp [headId, hhead]
  rw [busBits_eq_take_headId (hasSmallest_of_isSelected hselected) (wonAtOf_le s w), hid, flatten_traceFields,
    frameBits_without_dlcString]
  conv_rhs => rw [← List.take_append_drop (wonAtOf s w) (arbitrationId f)]
  simp only [List.append_assoc]

/-- Settles O38: arbitration and delivery complete, and step 8 leaves every connected node Idle and the bus clear. -/
theorem roundIsTotal : Obligations.RoundIsTotal := by
  intro s hready hself hpolicy
  obtain ⟨u, hround, hwired⟩ := roundBody_completes hready hself hpolicy
  have hsetup : (roundReset u).drvSetupDone = true :=
    (congrArg Rest.drvSetupDone (restOf_roundBody hround)).trans hready.1
  refine ⟨setResult (roundReset u) .none, ?_, roundReady_roundReset hsetup hwired⟩
  rw [exec, execRound, round_of_roundReady hready, hround, andThen_next]

end Sys2Proof.Machine
end

section
/-!
The family of 45_driver.md, part one: `SETUP` (R241), `STEP` (R243), `PAUSE` and `RESUME` (R245, R247), and the contract
of the reference generator (R254). The loop of `SETUP` is followed slot by slot: each spec it places leaves the slots
after it free.
-/

namespace Sys2Proof.Machine

/-! ## `SETUP` (R241) -/

section Setup

variable {s t : State} {j : Nat} {specs : List NodeSpec}

theorem distinctIds_iff (ids : List Nat) : distinctIds ids = true ↔ ids.Nodup := by
  induction ids with
  | nil => simp [distinctIds]
  | cons id rest ih => simp [distinctIds, ih]

/-- The record `SETUP` writes for a node spec (R161, R241). -/
def specNode (n : NodeSpec) : Node :=
  { id := n.id, pending := n.frames.tail, next := n.frames.head?, listeners := n.listeners, status := .idle,
    transmitErrors := 0, receiveErrors := 0 }

/-- The state after the loop of `SETUP` has placed one spec in slot j. -/
def placeSpec (j : Nat) (n : NodeSpec) (s : State) : State :=
  emit (setConnected (putNode s j (specNode n)) (s.busConnected ++ [j])) (.nodeConnected n.id)

/-- The state after the loop of `SETUP` has placed the specs from slot j on. -/
def placeSpecs (j : Nat) (specs : List NodeSpec) (s : State) : State :=
  { s with
    nodes := s.nodes.take j ++ specs.map (fun n => some (specNode n)) ++ s.nodes.drop (j + specs.length)
    busConnected := s.busConnected ++ List.range' j specs.length
    events := s.events ++ specs.map fun n => ⟨s.busTick, .nodeConnected n.id⟩ }

/-- The m slots from j on exist and hold no node. -/
structure FreeSlots (s : State) (j m : Nat) : Prop where
  exist : j + m ≤ s.nodes.length
  empty : ∀ i, j ≤ i → i < j + m → nodeAt s i = none

theorem FreeSlots.first {m : Nat} (h : FreeSlots s j (m + 1)) : j < s.nodes.length ∧ nodeAt s j = none := by
  obtain ⟨hexist, hempty⟩ := h
  exact ⟨by omega, hempty j le_rfl (by omega)⟩

theorem freeSlots_placeSpec {m : Nat} {n : NodeSpec} (h : FreeSlots s j (m + 1)) :
    FreeSlots (placeSpec j n s) (j + 1) m := by
  obtain ⟨hexist, hempty⟩ := h
  refine ⟨?_, fun i hi hlt => ?_⟩
  · rw [placeSpec, emit_nodes, setConnected_nodes, putNode_nodes, List.length_set]
    omega
  · have hne : i ≠ j := by omega
    exact (nodeAt_putNode_ne hne).trans (hempty i (by omega) (by omega))

theorem placeSpecs_placeSpec {n : NodeSpec} (h : j < s.nodes.length) :
    placeSpecs (j + 1) specs (placeSpec j n s) = placeSpecs j (n :: specs) s := by
  have htake : (s.nodes.set j (some (specNode n))).take (j + 1) = s.nodes.take j ++ [some (specNode n)] := by
    simp [List.take_add_one, List.take_set_of_le, h]
  have hdrop :
      (s.nodes.set j (some (specNode n))).drop (j + 1 + specs.length) = s.nodes.drop (j + (specs.length + 1)) := by
    rw [List.drop_set_of_lt (by omega), Nat.add_right_comm, Nat.add_assoc]
  simp [placeSpecs, placeSpec, htake, hdrop, List.range'_succ]

/-- One turn of the loop on a free slot. -/
theorem setupNodes_cons_of_free {m : Nat} {n : NodeSpec} (h : FreeSlots s j (m + 1)) (hself : n.id ∉ n.listeners) :
    setupNodes j (n :: specs) s = setupNodes (j + 1) specs (placeSpec j n s) := by
  obtain ⟨hslot, hempty⟩ := h.first
  have hfresh : freshNode n.id n.listeners n.frames = specNode n := popNext_eq _
  have hinit : nodeInit j n.id n.listeners n.frames s = .next (putNode s j (specNode n)) :=
    nodeInit_eq_next_iff.mpr ⟨hslot, hempty, hself, by rw [hfresh]⟩
  rw [setupNodes, hinit, andThen_next]
  rfl

theorem setupNodes_of_free (h : FreeSlots s j specs.length) (hself : ∀ n ∈ specs, n.id ∉ n.listeners) :
    setupNodes j specs s = .next (placeSpecs j specs s) := by
  induction specs generalizing j s with
  | nil => simp [setupNodes, placeSpecs]
  | cons n rest ih =>
    obtain ⟨hn, hrest⟩ := List.forall_mem_cons.mp hself
    rw [setupNodes_cons_of_free h hn, ih (freeSlots_placeSpec h) hrest, placeSpecs_placeSpec h.first.1]

theorem setupNodes_of_selfListener (h : FreeSlots s j specs.length) (hself : ∃ n ∈ specs, n.id ∈ n.listeners) :
    setupNodes j specs s = .refused .selfListener := by
  induction specs generalizing j s with
  | nil => simp at hself
  | cons n rest ih =>
    by_cases hn : n.id ∈ n.listeners
    · obtain ⟨hslot, hempty⟩ := h.first
      rw [setupNodes, nodeInit_of_selfListener hslot hempty hn, andThen_refused]
    · rw [setupNodes_cons_of_free h hn, ih (freeSlots_placeSpec h) (by simpa [hn] using hself)]

/-- `SETUP` with its preconditions but the slots' met is its loop (R241). -/
theorem exec_setup_of_preconditions {limit : Nat} {policy : DupIdPolicy} (hsetup : s.drvSetupDone = false)
    (hnodup : (specs.map NodeSpec.id).Nodup) (hslots : specs.length ≤ s.nodes.length) (hlimit : limit ≠ 0) :
    exec (.setup limit policy specs) s =
      andThen (setupNodes 0 specs { s with cfgErrorLimit := limit, cfgDupIdPolicy := policy }) fun s' =>
        .next { setResult s' .none with drvSetupDone := true } := by
  rw [exec, execSetup, if_neg (by simp [hsetup]), if_neg (by simp [distinctIds_iff, hnodup]),
    if_neg (Nat.not_lt.mpr hslots), if_neg hlimit]

end Setup

/-! ## `STEP` (R243) -/

section Step

variable {s t : State}

/-- ROUND answers next exactly when the round does, with no result (R210). -/
theorem exec_round_eq_next_iff : exec .round s = .next t ↔ ∃ u, round s = .next u ∧ t = setResult u .none := by
  rw [exec, execRound, andThen_eq_next_iff]
  simp [eq_comm]

/-- The node-level commands and `ROUND` leave alone the ticks, the requests, the configuration and the host's ports
(R68). -/
theorem restOf_of_nodeLevel {i : Instr} (hlevel : nodeLevel i = true) (h : exec i s = .next t) :
    restOf t = restOf s := by
  have of_entered {st : Status} {k : Nat}
      (h : (withNode s k fun n => .next (setResult (enterStatus st s k) (.description n.id st))) = .next t) :
      restOf t = restOf s := by
    obtain ⟨n, -, ht⟩ := withNode_eq_next_iff.mp h
    cases ht
    simp
  cases i with
  | nodeInit k id listeners frames =>
    obtain ⟨u, hu, ht⟩ := andThen_eq_next_iff.mp h
    obtain ⟨-, -, -, rfl⟩ := nodeInit_eq_next_iff.mp hu
    cases ht
    simp
  | enterArbitration | enterIdle | enterSending | enterReceiving => exact of_entered h
  | transmit k =>
    obtain ⟨u, hu, ht⟩ := andThen_eq_next_iff.mp h
    obtain ⟨n, f, -, -, -, rfl⟩ := transmit_eq_next_iff.mp hu
    cases ht
    simp
  | receive k =>
    obtain ⟨n, -, ht⟩ := withNode_eq_next_iff.mp h
    split at ht
    · cases ht
      unfold receive
      split <;> simp
    · simp at ht
  | ackSuccess k | ackFailure k =>
    obtain ⟨n, -, ht⟩ := withNode_eq_next_iff.mp h
    split_ifs at ht
    cases ht
    simp [ackSuccess, ackFailure]
  | evict k =>
    obtain ⟨n, -, ht⟩ := withNode_eq_next_iff.mp h
    cases ht
    simp [evict]
  | arbitrate =>
    rw [exec, execArbitrate] at h
    split_ifs at h
    obtain ⟨u, hu, ht⟩ := andThen_eq_next_iff.mp h
    cases ht
    exact restOf_arbitrate (t := u) hu
  | round =>
    obtain ⟨u, hu, ht⟩ := andThen_eq_next_iff.mp h
    obtain ⟨-, -, -, hbody⟩ := round_eq_next_iff.mp hu
    cases ht
    exact restOf_roundBody (t := u) hbody
  | _ => simp [nodeLevel] at hlevel

/-- `STEP` is a round at the driver's tick, and the tick after it (R243). -/
theorem exec_step_of_round (h : exec .round (setBusTick s s.drvTick) = .next t) :
    exec .step s = .next (setDrvTick t (s.drvTick + 1)) := by
  have hdrvTick : t.drvTick = s.drvTick := congrArg Rest.drvTick (restOf_of_nodeLevel rfl h)
  obtain ⟨u, hu, rfl⟩ := exec_round_eq_next_iff.mp h
  rw [exec, execStep, driverStep_eq_next_iff.mpr ⟨u, hu, rfl⟩, andThen_next, ← hdrvTick]
  rfl

end Step

/-! ## The reference generator (R253) -/

theorem length_of_referencePayload {data : List Byte} (h : referencePayload data = true) :
    5 ≤ data.length ∧ data.length ≤ 10 := by
  simp only [referencePayload, Bool.and_eq_true, decide_eq_true_iff] at h
  exact h.1

/-! ## The obligations -/

/-- Settles O40: the checks before the loop are looked at in the rule's order; on free slots the loop places every spec
or stops at the first node that listens to itself. -/
theorem setupLaunches : Obligations.SetupLaunches := by
  intro limit policy specs s hinv
  refine ⟨fun hsetup => ?_, fun hsetup htwice => ?_,
    fun hsetup hnodup hslots => ⟨fun hlimit => ?_, fun hlimit hempty => ?_⟩⟩
  · rw [exec, execSetup, if_pos hsetup]
  · rw [exec, execSetup, if_neg (by simp [hsetup]), if_pos (by simpa [← distinctIds_iff] using htwice)]
  · rw [exec, execSetup, if_neg (by simp [hsetup]), if_neg (by simp [distinctIds_iff, hnodup]),
      if_neg (Nat.not_lt.mpr hslots), if_pos hlimit]
  · rw [exec_setup_of_preconditions hsetup hnodup hslots (Nat.ne_of_gt hlimit)]
    have hfree : FreeSlots { s with cfgErrorLimit := limit, cfgDupIdPolicy := policy } 0 specs.length :=
      ⟨(Nat.zero_add _).trans_le hslots, fun i _ hi => hempty i (by omega)⟩
    obtain ⟨hconnected, htick, -⟩ := hinv.beforeSetup hsetup
    refine ⟨fun hself => ?_, fun hself => ?_⟩
    · rw [setupNodes_of_selfListener hfree hself, andThen_refused]
    · rw [setupNodes_of_free hfree hself, andThen_next]
      simp [placeSpecs, setResult, hconnected, htick, List.range_eq_range', specNode]

/-- Settles O41: a round leaves both tick registers as it found them, and it completes from a ready state whatever the
requests. -/
theorem stepRunsOneRound : Obligations.StepRunsOneRound := by
  have one_round (s t : State) (h : exec .round (setBusTick s s.drvTick) = .next t) :
      exec .step s = .next { t with drvTick := s.drvTick + 1 } ∧ t.busTick = s.drvTick :=
    ⟨exec_step_of_round h, congrArg Rest.busTick (restOf_of_nodeLevel rfl h)⟩
  obtain ⟨-, before_setup, -, -⟩ := roundRefusals
  refine ⟨fun s hsetup => ?_, one_round, fun s hready hself hpolicy => ?_⟩
  · obtain ⟨-, hstep, -⟩ := before_setup s hsetup
    exact hstep
  · obtain ⟨t, hround, hnext⟩ := roundIsTotal (setBusTick s s.drvTick) hready hself hpolicy
    obtain ⟨hstep, htick⟩ := one_round s t hround
    exact ⟨_, hstep, htick, rfl, hnext⟩

/-- Settles O43: the two operations are one write each. -/
theorem pauseAndResume : Obligations.PauseAndResume := fun _ => ⟨rfl, rfl⟩

/-- Settles O57: 5 to 10 bytes are a legal payload, and CORRUPT does not change their number. -/
theorem referencePayloadIsAccepted : Obligations.ReferencePayloadIsAccepted := by
  intro time data priority s hpayload hlow hhigh
  obtain ⟨hmin, hmax⟩ := length_of_referencePayload hpayload
  have hdata : data ≠ [] := List.ne_nil_of_length_pos (by omega)
  have hwf : (newFrame time data priority.toNat).wf = true := by
    rw [Frame.wf, Bool.and_eq_true, decide_eq_true_iff, decide_eq_true_iff]
    exact ⟨show 1 ≤ data.length by omega, show data.length ≤ 15 by omega⟩
  exact ⟨_, exec_construct_of_legal hlow hhigh hdata (by omega), hwf,
    fun _ _ _ _ => ⟨_, exec_corrupt s, (corruptFrame_wf ..).trans hwf⟩⟩

end Sys2Proof.Machine
end

section
/-!
The family of 45_driver.md, part two: `STOP` (R246). The request is kept because only `RESET` and `STOP` write it. No
part of a round reads it, so each commutes with setting it, and so does `STEP`.
-/

namespace Sys2Proof.Machine

/-! ## Only `RESET` clears the request -/

section Sticky

variable {s t : State}

theorem drvStopReq_of_restOf (h : restOf t = restOf s) : t.drvStopReq = s.drvStopReq := congrArg Rest.drvStopReq h

theorem drvStopReq_of_driverStep (h : driverStep s = .next t) : t.drvStopReq = s.drvStopReq := by
  obtain ⟨u, hu, rfl⟩ := driverStep_eq_next_iff.mp h
  obtain ⟨-, -, -, hbody⟩ := round_eq_next_iff.mp hu
  exact drvStopReq_of_restOf (t := u) (s := setBusTick s s.drvTick) (restOf_roundBody hbody)

theorem exec_keeps_drvStopReq {i : Instr} (hreset : i ≠ .reset) (h : exec i s = .next t) (hs : s.drvStopReq = true) :
    t.drvStopReq = true := by
  have of_result (h : ∃ r, t = setResult s r) : t.drvStopReq = true := by
    obtain ⟨r, rfl⟩ := h
    exact hs
  cases i with
  | reset => exact absurd rfl hreset
  | step =>
    obtain ⟨u, hu, ht⟩ := andThen_eq_next_iff.mp h
    cases ht
    exact (drvStopReq_of_driverStep hu).trans hs
  | run =>
    obtain ⟨-, ⟨-, rfl⟩ | ⟨-, u, hu, rfl⟩⟩ := execRun_eq_next_iff.mp h
    · exact hs
    · exact (drvStopReq_of_driverStep hu).trans hs
  | setup limit policy specs =>
    rw [exec, execSetup] at h
    split_ifs at h
    obtain ⟨u, hu, ht⟩ := andThen_eq_next_iff.mp h
    cases ht
    exact (drvStopReq_of_restOf (setupNodes_keeps hu).1).trans hs
  | construct => exact of_result (execConstruct_eq_next h)
  | decode => exact of_result (execDecode_eq_next h)
  | crc16 | crcByte | encode | corrupt | repair | isvalid | pause | resume =>
    cases h
    exact hs
  | stop =>
    cases h
    rfl
  | nodeInit | enterArbitration | enterIdle | enterSending | enterReceiving | transmit | receive | ackSuccess
  | ackFailure | evict | arbitrate | round => exact (drvStopReq_of_restOf (restOf_of_nodeLevel rfl h)).trans hs

end Sticky

/-! ## No part of a round reads the request -/

/-- The state with the stop request set. -/
def withStop (s : State) : State := { s with drvStopReq := true }

section Stop

variable {s t : State} {k w : Nat}

theorem nodeAt_withStop (s : State) : nodeAt (withStop s) = nodeAt s := rfl
theorem contenders_withStop (s : State) : contenders (withStop s) = contenders s := rfl
theorem dominantAt_withStop (s : State) : dominantAt (withStop s) = dominantAt s := rfl
theorem setPhase_withStop (p : Phase) : setPhase (withStop s) p = withStop (setPhase s p) := rfl
theorem setBitIndex_withStop (i : Nat) : setBitIndex (withStop s) i = withStop (setBitIndex s i) := rfl
theorem setAckSeen_withStop (b : Bool) : setAckSeen (withStop s) b = withStop (setAckSeen s b) := rfl

theorem updateNode_withStop (f : Node → Node) : updateNode (withStop s) k f = withStop (updateNode s k f) := by
  unfold updateNode
  rw [nodeAt_withStop]
  split <;> rfl

theorem emitNode_withStop (mk : Node → EventKind) : emitNode (withStop s) k mk = withStop (emitNode s k mk) := by
  unfold emitNode
  rw [nodeAt_withStop]
  split <;> rfl

theorem forSlots_withStop {f : State → Nat → State} (h : ∀ s k, f (withStop s) k = withStop (f s k)) (ks : List Nat)
    (s : State) : forSlots f ks (withStop s) = withStop (forSlots f ks s) :=
  List.foldl_hom withStop h

theorem enterStatus_withStop (st : Status) : enterStatus st (withStop s) k = withStop (enterStatus st s k) := by
  rw [enterStatus, updateNode_withStop, emitNode_withStop, enterStatus]

theorem forSlots_enterStatus_withStop (st : Status) (ks : List Nat) (s : State) :
    forSlots (enterStatus st) ks (withStop s) = withStop (forSlots (enterStatus st) ks s) :=
  forSlots_withStop (fun _ _ => enterStatus_withStop st) ks s

/-! ### Arbitration (R190 to R199) -/

theorem enterEligible_withStop : enterEligible (withStop s) = withStop (enterEligible s) := by
  have hannounce (e : List Nat) (s : State) : announceStart e (withStop s) = withStop (announceStart e s) := by
    unfold announceStart
    split <;> rfl
  rw [enterEligible, forSlots_enterStatus_withStop, hannounce, enterEligible]
  rfl

theorem compareIndex_withStop (i : Nat) (a : List Nat) (ld : Option Nat) :
    compareIndex i a ld (withStop s) = Prod.map withStop id (compareIndex i a ld s) := by
  have hreport : reportBits i a (withStop s) = withStop (reportBits i a s) :=
    forSlots_withStop (fun _ _ => emitNode_withStop _) a s
  unfold compareIndex eliminate
  rw [hreport, dominantAt_withStop, forSlots_enterStatus_withStop, apply_ite (Prod.map withStop id)]
  rfl

/-- What the comparator leaves behind, with the stop request set. -/
def runWithStop (r : ArbRun) : ArbRun := { r with st := withStop r.st }

theorem arbLoop_withStop (is : List Nat) (ld : Option Nat) (s : State) :
    arbLoop is ld (withStop s) = runWithStop (arbLoop is ld s) := by
  induction is generalizing ld s with
  | nil => rfl
  | cons i is ih =>
    unfold arbLoop
    rw [contenders_withStop, setBitIndex_withStop]
    split
    · rfl
    · exact ih ld _
    · rw [compareIndex_withStop, Prod.map_fst, Prod.map_snd, ih, id]

theorem exhaust_withStop (ld : Option Nat) : exhaust ld (withStop s) = mapNext withStop (exhaust ld s) := by
  unfold exhaust
  rw [contenders_withStop, show (withStop s).cfgDupIdPolicy = s.cfgDupIdPolicy from rfl]
  split
  · rfl
  · rfl
  · split <;> rfl

theorem announceWinner_withStop : announceWinner (withStop s) = withStop (announceWinner s) := by
  unfold announceWinner
  rw [show (withStop s).seqWinner = s.seqWinner from rfl]
  split
  · exact emitNode_withStop _
  · rfl

/-- A sequence commutes with setting the request if its second part does. -/
theorem andThen_withStop {o : Host.Outcome State Fault Refusal} {f : State → Host.Outcome State Fault Refusal}
    (h : ∀ s, f (withStop s) = mapNext withStop (f s)) :
    andThen (mapNext withStop o) f = mapNext withStop (andThen o f) := by
  rw [mapNext_andThen, ← funext h]
  cases o <;> rfl

theorem finishArbitration_withStop (r : ArbRun) :
    finishArbitration (runWithStop r) = mapNext withStop (finishArbitration r) := by
  unfold finishArbitration
  rw [← andThen_withStop fun s => congrArg _ announceWinner_withStop, runWithStop, exhaust_withStop,
    apply_ite (mapNext withStop)]
  rfl

theorem arbitrate_withStop : arbitrate (withStop s) = mapNext withStop (arbitrate s) := by
  have hstart : setWinner (withStop s) none 0 = withStop (setWinner s none 0) := rfl
  rw [arbitrate, hstart, enterEligible_withStop, arbLoop_withStop, finishArbitration_withStop, arbitrate]

/-! ### The steps after arbitration (R213 to R224) -/

theorem transmission_withStop (ls : List Nat) :
    transmission w ls (withStop s) = mapNext withStop (transmission w ls s) := by
  have htransmit (s : State) : transmit w (withStop s) = mapNext withStop (transmit w s) := by
    unfold transmit
    rw [mapNext_withNode, withNode, nodeAt_withStop, ← withNode]
    congr 1
    funext n
    split <;> rfl
  have hfields (s : State) : emitFields w (withStop s) = withStop (emitFields w s) := by
    unfold emitFields
    rw [show (withStop s).busOnBus = s.busOnBus from rfl]
    split
    · exact List.foldl_hom withStop fun s p => emitNode_withStop _
    · rfl
  rw [transmission, forSlots_enterStatus_withStop, htransmit, andThen_withStop fun s => congrArg _ (hfields s),
    transmission]

theorem receiveStep_withStop : receiveStep (withStop s) k = withStop (receiveStep s k) := by
  have herror : takeError (.frameCorruption k) (withStop s) = withStop (takeError (.frameCorruption k) s) :=
    updateNode_withStop _
  unfold receiveStep receive
  rw [herror, show (withStop s).busOnBus = s.busOnBus from rfl]
  split
  · split <;> rfl
  · rfl

theorem acknowledgment_withStop (ls : List Nat) :
    acknowledgment w ls (withStop s) = withStop (acknowledgment w ls s) := by
  rw [acknowledgment, setPhase_withStop, setAckSeen_withStop, forSlots_withStop fun _ _ => receiveStep_withStop]
  exact emitNode_withStop _

theorem outcome_withStop : outcome w (withStop s) = withStop (outcome w s) := by
  have hsuccess (s : State) : ackSuccess w (withStop s) = withStop (ackSuccess w s) := updateNode_withStop _
  have hfailure (s : State) : ackFailure w (withStop s) = withStop (ackFailure w s) := updateNode_withStop _
  unfold outcome reportFailure
  rw [setPhase_withStop, hsuccess, hfailure, emitNode_withStop, apply_ite withStop]
  rfl

theorem evictionCheck_withStop : evictionCheck w (withStop s) = withStop (evictionCheck w s) := by
  have hdisconnect (s : State) : disconnect (withStop s) w = withStop (disconnect s w) :=
    emitNode_withStop (s := setConnected s (s.busConnected.filter (· ≠ w))) _
  have hevict (s : State) : evict w (withStop s) = withStop (evict w s) := by
    rw [evict, takeError, updateNode_withStop, hdisconnect, evict, takeError]
  unfold evictionCheck
  rw [setPhase_withStop, hevict, apply_ite withStop]
  rfl

theorem deliverTo_withStop (ls : List Nat) : deliverTo w ls (withStop s) = mapNext withStop (deliverTo w ls s) := by
  unfold deliverTo
  rw [transmission_withStop, andThen_withStop]
  intro s
  rw [acknowledgment_withStop, outcome_withStop, evictionCheck_withStop, mapNext_next]

theorem deliver_withStop : deliver w (withStop s) = mapNext withStop (deliver w s) := by
  rw [deliver, setPhase_withStop, enterStatus_withStop, deliverTo_withStop]
  rfl

theorem roundReset_withStop : roundReset (withStop s) = withStop (roundReset s) := by
  have hidle (s : State) (k : Nat) : idleStep (withStop s) k = withStop (idleStep s k) := by
    unfold idleStep
    rw [enterStatus_withStop, apply_ite withStop]
    rfl
  rw [roundReset, setPhase_withStop, forSlots_withStop hidle]
  rfl

theorem roundBody_withStop : roundBody (withStop s) = mapNext withStop (roundBody s) := by
  unfold roundBody
  rw [setPhase_withStop, setPhase_withStop, arbitrate_withStop, andThen_withStop]
  intro s
  rw [show (withStop s).seqWinner = s.seqWinner from rfl]
  split
  · rw [deliver_withStop, andThen_withStop fun s => congrArg _ roundReset_withStop]
  · rw [roundReset_withStop, mapNext_next]

theorem round_withStop (h : round s = .next t) : round (withStop s) = .next (withStop t) := by
  obtain ⟨hsetup, hquiet, hphase, hbody⟩ := round_eq_next_iff.mp h
  exact round_eq_next_iff.mpr ⟨hsetup, hquiet, hphase, by rw [roundBody_withStop, hbody, mapNext_next]⟩

theorem exec_step_withStop (h : exec .step s = .next t) : exec .step (withStop s) = .next (withStop t) := by
  obtain ⟨u, hu, ht⟩ := andThen_eq_next_iff.mp h
  cases ht
  obtain ⟨v, hv, rfl⟩ := driverStep_eq_next_iff.mp hu
  exact andThen_eq_next_iff.mpr ⟨_, driverStep_eq_next_iff.mpr ⟨_, round_withStop hv, rfl⟩, rfl⟩

end Stop

/-! ## The obligation -/

/-- Settles O44: no operation but RESET clears the request, RUN looks at it first, and a round does not see it. -/
theorem stopIsSticky : Obligations.StopIsSticky := by
  refine ⟨fun _ => rfl, fun _ _ _ hreset hexec => exec_keeps_drvStopReq hreset hexec, fun s hstop hsetup => ?_,
    fun _ _ => exec_step_withStop⟩
  exact execRun_eq_next_iff.mpr ⟨hsetup, .inl ⟨by simp [runReturns, hstop], rfl⟩⟩

end Sys2Proof.Machine
end

section
/-!
The family of 45_driver.md, part three: a looping `RUN` terminates (R248, R297). What its rounds deliver depends on the
`Course` of a state alone, and a round changes it in one way: the winner's frame leaves its queue, or a failure is
counted and the winner evicted at the limit. So the work left shrinks in every round with a winner; in a round without
one the tick gets closer to the time of a head frame.
-/

namespace Sys2Proof.Machine

/-! ## What decides how `RUN` goes on -/

/-- A node record without its status and its receive-error counter. -/
def jobOf (n : Node) : Node := eraseReceiveErrors (noStatus n)

/-- Step 6 of a round for the winner's record (R219, R220): its head frame is dequeued, or the failure is counted and
the frame repaired. -/
def settleJob (ok : Bool) (n : Node) : Node :=
  if ok then popNext n else { n with transmitErrors := n.transmitErrors + 1, next := n.next.map repairFrame }

/-- The priorities of a node's undelivered frames. -/
def priorities (n : Node) : List (BitVec Config.idBits) := (undelivered n).map Frame.priority

/-- The part of a state that decides what the rounds of a `RUN` deliver: the nodes' jobs, who is connected, and the
error limit. -/
structure Course where
  jobs : Nat → Option Node
  connected : List Nat
  limit : Nat

def courseOf (s : State) : Course := ⟨fun k => (nodeAt s k).map jobOf, s.busConnected, s.cfgErrorLimit⟩

namespace Course

/-- Step 6 of a round that w wins. -/
def settle (c : Course) (w : Nat) (ok : Bool) : Course :=
  { c with jobs := Function.update c.jobs w ((c.jobs w).map (settleJob ok)) }

/-- Node w's `transmitErrors` has reached the limit. -/
def atLimit (c : Course) (w : Nat) : Bool := (c.jobs w).any fun n => decide (c.limit ≤ n.transmitErrors)

/-- Step 7 of a round that w wins (R222). -/
def evictAtLimit (c : Course) (w : Nat) : Course :=
  if c.atLimit w then { c with connected := c.connected.filter (· ≠ w) } else c

end Course

section Courses

variable {s t : State} {k w : Nat}

theorem courseOf_jobs (k : Nat) : (courseOf s).jobs k = (nodeAt s k).map jobOf := rfl

@[simp] theorem courseOf_emit (e : EventKind) : courseOf (emit s e) = courseOf s := rfl
@[simp] theorem courseOf_setPhase (p : Phase) : courseOf (setPhase s p) = courseOf s := rfl
@[simp] theorem courseOf_setOnBus (f : Option Frame) : courseOf (setOnBus s f) = courseOf s := rfl
@[simp] theorem courseOf_setAckSeen (b : Bool) : courseOf (setAckSeen s b) = courseOf s := rfl
@[simp] theorem courseOf_setConnected (ks : List Nat) :
    courseOf (setConnected s ks) = { courseOf s with connected := ks } := rfl

@[simp] theorem courseOf_emitNode (mk : Node → EventKind) : courseOf (emitNode s k mk) = courseOf s := by
  simp [courseOf]

/-- A change of a node record, as far as its job shows it. -/
theorem courseOf_updateNode {f g : Node → Node} (h : ∀ n, jobOf (f n) = g (jobOf n)) :
    courseOf (updateNode s k f) =
      { courseOf s with jobs := Function.update (courseOf s).jobs k (((courseOf s).jobs k).map g) } := by
  have hjobs (j : Nat) : (nodeAt (updateNode s k f) j).map jobOf =
      Function.update (courseOf s).jobs k (((courseOf s).jobs k).map g) j := by
    rw [nodeAt_updateNode, Function.update_apply, courseOf]
    split
    · rw [Option.map_map, Option.map_map, funext (f := jobOf ∘ f) (g := g ∘ jobOf) h]
    · rfl
  simp only [courseOf, hjobs, updateNode_busConnected, updateNode_cfgErrorLimit]

/-- A change of a node record that its job does not show. -/
theorem courseOf_updateNode_of_same_job {f : Node → Node} (h : ∀ n, jobOf (f n) = jobOf n) :
    courseOf (updateNode s k f) = courseOf s := by
  rw [courseOf_updateNode (g := id) h, Option.map_id_fun, id, Function.update_eq_self]

@[simp] theorem courseOf_enterStatus (st : Status) : courseOf (enterStatus st s k) = courseOf s := by
  rw [enterStatus, courseOf_emitNode, courseOf_updateNode_of_same_job (by exact fun _ => rfl)]

theorem courseOf_receiveStep : courseOf (receiveStep s k) = courseOf s := by
  unfold receiveStep receive takeError
  split
  · split
    · rfl
    · rw [courseOf_setAckSeen, courseOf_updateNode_of_same_job (by exact fun _ => rfl)]
  · rfl

theorem courseOf_idleStep : courseOf (idleStep s k) = courseOf s := by
  unfold idleStep
  split <;> simp

/-- Steps 1 to 3 change statuses only (R195). -/
theorem courseOf_arbitrate (h : arbitrate s = .next t) : courseOf t = courseOf s := by
  obtain ⟨hsame, hconnected⟩ := arbitrate_keeps h
  have hjobs (k : Nat) : (nodeAt t k).map jobOf = (nodeAt s k).map jobOf := by
    have hmap := congrArg (Option.map eraseReceiveErrors) (hsame k)
    rwa [Option.map_map, Option.map_map] at hmap
  have hlimit : t.cfgErrorLimit = s.cfgErrorLimit := congrArg Rest.cfgErrorLimit (restOf_arbitrate h)
  simp only [courseOf, hjobs, hconnected, hlimit]

/-- Step 4 changes statuses only (R213, R214). -/
theorem courseOf_transmission {ls : List Nat} (h : transmission w ls s = .next t) : courseOf t = courseOf s := by
  obtain ⟨n, f, -, -, -, rfl⟩ := transmission_eq_next_iff.mp h
  rw [emitFields_field courseOf fun _ _ => courseOf_emit _, courseOf_setOnBus,
    forSlots_field courseOf fun _ _ => courseOf_enterStatus _]

/-- Step 5 counts receive errors only (R216, R217). -/
theorem courseOf_acknowledgment (ls : List Nat) : courseOf (acknowledgment w ls s) = courseOf s := by
  rw [acknowledgment, reportAck, courseOf_emitNode, forSlots_field courseOf fun _ _ => courseOf_receiveStep,
    courseOf_setAckSeen, courseOf_setPhase]

theorem jobOf_settleJob (ok : Bool) (n : Node) : jobOf (settleJob ok n) = settleJob ok (jobOf n) := by
  cases ok
  · rfl
  · simp only [settleJob, popNext_eq]
    rfl

/-- Step 6 (R219, R220). -/
theorem courseOf_outcome : courseOf (outcome w s) = (courseOf s).settle w s.seqAckSeen := by
  unfold outcome
  split
  next hok =>
    rw [ackSuccess, hok]
    exact courseOf_updateNode (jobOf_settleJob true)
  next hfail =>
    rw [reportFailure, courseOf_emitNode, ackFailure, takeError, Bool.eq_false_of_not_eq_true hfail]
    exact courseOf_updateNode (jobOf_settleJob false)

theorem limitReached_eq : limitReached s w = (courseOf s).atLimit w := by
  unfold limitReached
  rw [Course.atLimit, courseOf_jobs, Option.any_map]
  cases nodeAt s w <;> rfl

theorem courseOf_evict : courseOf (evict k s) = { courseOf s with connected := s.busConnected.filter (· ≠ k) } := by
  rw [evict, takeError, disconnect, courseOf_emitNode, courseOf_setConnected, updateNode_busConnected,
    courseOf_updateNode_of_same_job (by exact fun _ => rfl)]

/-- Step 7 (R222). -/
theorem courseOf_evictionCheck : courseOf (evictionCheck w s) = (courseOf s).evictAtLimit w := by
  unfold evictionCheck Course.evictAtLimit
  rw [limitReached_eq]
  split
  · exact courseOf_evict
  · rfl

/-- Step 8 changes statuses only (R224). -/
theorem courseOf_roundReset : courseOf (roundReset s) = courseOf s := by
  rw [roundReset, courseOf_setPhase, courseOf_emit, courseOf_setOnBus,
    forSlots_field courseOf fun _ _ => courseOf_idleStep, courseOf_setPhase]

/-- Steps 4 to 7 of a round that w wins (R213 to R222). -/
theorem courseOf_deliver (h : deliver w s = .next t) :
    ∃ ok, courseOf t = ((courseOf s).settle w ok).evictAtLimit w := by
  obtain ⟨u, hu, ht⟩ := andThen_eq_next_iff.mp h
  obtain rfl := by simpa using ht
  rw [courseOf_evictionCheck, courseOf_outcome, courseOf_acknowledgment, courseOf_transmission hu,
    courseOf_enterStatus, courseOf_setPhase]
  exact ⟨_, rfl⟩

/-- Among distinct priorities arbitration finds a winner unless nobody is eligible (R198, R200). -/
theorem winner_of_arbitrate (hquiet : busQuiet s = true) (hnodup : s.busConnected.Nodup) (hdistinct : DistinctHeads s)
    (h : arbitrate s = .next t) :
    (eligibleSlots s = [] ∧ t.seqWinner = none) ∨ ∃ w ∈ eligibleSlots s, t.seqWinner = some w := by
  by_cases hnobody : eligibleSlots s = []
  · obtain ⟨u, hu, hnone⟩ := arbitrate_of_nobody hquiet hnobody
    rw [h] at hu
    cases hu
    exact .inl ⟨hnobody, hnone⟩
  · obtain ⟨w, hw⟩ := exists_hasSmallest hnobody
    obtain ⟨v, j, -, -, -, hv⟩ := arbitrate_of_alone hquiet hw (tiedWith_of_distinctHeads hnodup hdistinct hw.1)
    rw [h] at hv
    cases hv
    exact .inr ⟨w, hw.1, by simp⟩

/-- What a round does to the course (R210): nothing if nobody is eligible; else the winner's job is settled, and it is
evicted at the limit. -/
theorem courseOf_round (hready : RoundReady s) (hdistinct : DistinctHeads s) (h : exec .round s = .next t) :
    (eligibleSlots s = [] ∧ courseOf t = courseOf s) ∨
      ∃ w ∈ eligibleSlots s, ∃ ok, courseOf t = ((courseOf s).settle w ok).evictAtLimit w := by
  obtain ⟨-, hquiet, -, hnodup⟩ := hready
  obtain ⟨r, hr, rfl⟩ := exec_round_eq_next_iff.mp h
  obtain ⟨-, -, -, hbody⟩ := round_eq_next_iff.mp hr
  obtain ⟨u, hu, ht⟩ := andThen_eq_next_iff.mp hbody
  have hcourse : courseOf u = courseOf s := by simpa using courseOf_arbitrate hu
  obtain ⟨hnobody, hwinner⟩ | ⟨w, hw, hwinner⟩ :=
    winner_of_arbitrate (s := setPhase (setPhase s .eligibility) .arbitration) hquiet hnodup hdistinct hu
  · simp only [hwinner] at ht
    cases ht
    exact .inl ⟨hnobody, courseOf_roundReset.trans hcourse⟩
  · simp only [hwinner] at ht
    obtain ⟨v, hv, ht⟩ := andThen_eq_next_iff.mp ht
    cases ht
    obtain ⟨ok, hdeliver⟩ := courseOf_deliver hv
    exact .inr ⟨w, hw, ok, courseOf_roundReset.trans (hcourse ▸ hdeliver)⟩

end Courses

/-! ## The work left shrinks -/

theorem length_undelivered_of_head {n : Node} {f : Frame} (hf : n.next = some f) :
    (undelivered n).length = n.pending.length + 1 := by
  simp [undelivered, hf]

namespace Course

variable {c : Course} {k w : Nat} {n : Node} {ok : Bool}

/-- What node k may still cost: a delivery for each of its frames, a failure for each error below the limit. -/
def load (c : Course) (k : Nat) : Nat :=
  (c.jobs k).elim 0 fun n => (undelivered n).length + (c.limit - n.transmitErrors)

/-- What the connected nodes may still cost together. -/
def work (c : Course) : Nat := ∑ k ∈ c.connected.toFinset, c.load k

/-- The time of node k's head frame, 0 without one. -/
def headTime (c : Course) (k : Nat) : Nat := ((c.jobs k).bind Node.next).elim 0 Frame.time

/-- The latest time of a connected node's head frame. -/
def lastHead (c : Course) : Nat := c.connected.toFinset.sup c.headTime

theorem settle_jobs : (c.settle w ok).jobs k = if k = w then (c.jobs w).map (settleJob ok) else c.jobs k :=
  Function.update_apply ..

theorem settle_jobs_self (hn : c.jobs w = some n) : (c.settle w ok).jobs w = some (settleJob ok n) := by
  rw [settle_jobs, if_pos rfl, hn, Option.map_some]

theorem load_settle_of_ne (h : k ≠ w) : (c.settle w ok).load k = c.load k := by
  rw [load, settle_jobs, if_neg h]
  rfl

theorem load_pos {f : Frame} (hn : c.jobs w = some n) (hf : n.next = some f) : 0 < c.load w := by
  simp [load, hn, length_undelivered_of_head hf]

/-- Below the limit, a delivery takes a frame off the winner's load and a failure an error. -/
theorem load_settle_lt {f : Frame} (hn : c.jobs w = some n) (hf : n.next = some f)
    (hbelow : (c.settle w ok).atLimit w = false) : (c.settle w ok).load w < c.load w := by
  have hjob := settle_jobs_self (ok := ok) hn
  rw [atLimit, hjob] at hbelow
  rw [load, load, hjob, hn]
  cases ok with
  | true => simp [settleJob, settle, undelivered_popNext, length_undelivered_of_head hf]
  | false =>
    have hbelow : ¬ c.limit ≤ n.transmitErrors + 1 := of_decide_eq_false hbelow
    have hless : c.limit - (n.transmitErrors + 1) < c.limit - n.transmitErrors := by omega
    simpa [settleJob, settle, undelivered, hf] using hless

/-- A round with a winner leaves less work, whether the winner stays connected or not. -/
theorem work_round_lt {f : Frame} (hw : w ∈ c.connected) (hn : c.jobs w = some n) (hf : n.next = some f) :
    ((c.settle w ok).evictAtLimit w).work < c.work := by
  have hw : w ∈ c.connected.toFinset := List.mem_toFinset.mpr hw
  unfold evictAtLimit
  split
  next =>
    have hleft : (c.connected.filter (· ≠ w)).toFinset = c.connected.toFinset.erase w := by
      ext k
      simp [and_comm]
    calc
      _ = ∑ k ∈ c.connected.toFinset.erase w, c.load k := by
        rw [work, settle, hleft]
        exact Finset.sum_congr rfl fun k hk => load_settle_of_ne (ok := ok) (Finset.ne_of_mem_erase hk)
      _ < c.work := Finset.sum_erase_lt_of_pos hw (load_pos hn hf)
  next hbelow =>
    have hlt := load_settle_lt hn hf (Bool.eq_false_of_not_eq_true hbelow)
    refine Finset.sum_lt_sum (fun k _ => ?_) ⟨w, hw, hlt⟩
    by_cases hk : k = w
    · exact hk ▸ hlt.le
    · exact (load_settle_of_ne hk).le

/-! ## The conditions under which a round completes are kept -/

/-- No connected node listens to itself (R33), and no two of them hold frames of one priority (R297). -/
structure Lawful (c : Course) : Prop where
  noSelf : ∀ k ∈ c.connected, ∀ n ∈ c.jobs k, n.id ∉ n.listeners
  distinct : ∀ k ∈ c.connected, ∀ k' ∈ c.connected, k ≠ k' →
    ∀ n ∈ c.jobs k, ∀ n' ∈ c.jobs k', (priorities n).Disjoint (priorities n')

theorem priorities_settleJob_subset : priorities (settleJob ok n) ⊆ priorities n := by
  cases ok with
  | true =>
    rw [priorities, settleJob, if_pos rfl, undelivered_popNext]
    exact List.map_subset _ (List.subset_append_right ..)
  | false => cases h : n.next <;> simp [priorities, settleJob, undelivered, repairFrame, h]

theorem Lawful.of_connected_subset (h : c.Lawful) {ks : List Nat} (hsub : ks ⊆ c.connected) :
    Lawful { c with connected := ks } :=
  ⟨fun k hk => h.noSelf k (hsub hk), fun k hk k' hk' => h.distinct k (hsub hk) k' (hsub hk')⟩

theorem Lawful.evictAtLimit (h : c.Lawful) : (c.evictAtLimit w).Lawful := by
  unfold Course.evictAtLimit
  split
  · exact h.of_connected_subset (List.filter_subset_self _)
  · exact h

/-- A settled job belongs to the node of the job before, and its frames carry no new priority. -/
theorem older_of_settle {m : Node} (hm : m ∈ (c.settle w ok).jobs k) :
    ∃ n ∈ c.jobs k, m.id = n.id ∧ m.listeners = n.listeners ∧ priorities m ⊆ priorities n := by
  rw [settle_jobs] at hm
  split at hm
  next hk =>
    obtain ⟨n, hn, rfl⟩ := Option.map_eq_some_iff.mp hm
    refine ⟨n, hk ▸ hn, ?_, ?_, priorities_settleJob_subset⟩
    · cases ok <;> simp [settleJob]
    · cases ok <;> simp [settleJob]
  next => exact ⟨m, hm, rfl, rfl, List.Subset.refl _⟩

theorem Lawful.settle (h : c.Lawful) : (c.settle w ok).Lawful where
  noSelf := by
    intro k hk m hm
    obtain ⟨n, hn, hid, hlisteners, -⟩ := older_of_settle hm
    rw [hid, hlisteners]
    exact h.noSelf k hk n hn
  distinct := by
    intro k hk k' hk' hne m hm m' hm'
    obtain ⟨n, hn, -, -, hsub⟩ := older_of_settle hm
    obtain ⟨n', hn', -, -, hsub'⟩ := older_of_settle hm'
    exact List.disjoint_of_subset_left hsub
      (List.disjoint_of_subset_right hsub' (h.distinct k hk k' hk' hne n hn n' hn'))

end Course

theorem lawful_courseOf {s : State} (hself : NoSelfListeners s) (hdistinct : DistinctFrames s) :
    (courseOf s).Lawful where
  noSelf := by
    intro k hk m hm
    obtain ⟨n, hn, rfl⟩ := Option.map_eq_some_iff.mp hm
    exact hself k hk n hn
  distinct := by
    intro k hk k' hk' hne m hm m' hm'
    obtain ⟨n, hn, rfl⟩ := Option.map_eq_some_iff.mp hm
    obtain ⟨n', hn', rfl⟩ := Option.map_eq_some_iff.mp hm'
    refine List.disjoint_left.mpr fun p hp hp' => ?_
    obtain ⟨f, hf, rfl⟩ := List.mem_map.mp hp
    obtain ⟨f', hf', heq⟩ := List.mem_map.mp hp'
    exact hdistinct k hk k' hk' hne n hn n' hn' f hf f' hf' heq.symm

theorem noSelfListeners_of_lawful {s : State} (h : (courseOf s).Lawful) : NoSelfListeners s :=
  fun k hk n hn => h.noSelf k hk (jobOf n) (Option.mem_map_of_mem jobOf hn)

/-- Whatever the tick, two eligible heads of a lawful course have two priorities (R297). -/
theorem distinctHeads_of_lawful {s : State} (h : (courseOf s).Lawful) : DistinctHeads s := by
  intro k hk k' hk' hsame
  by_contra hne
  obtain ⟨hk, heligible⟩ := mem_eligibleSlots_iff.mp hk
  obtain ⟨hk', heligible'⟩ := mem_eligibleSlots_iff.mp hk'
  obtain ⟨n, f, hn, hf⟩ := exists_head_of_eligible heligible
  obtain ⟨n', f', hn', hf'⟩ := exists_head_of_eligible heligible'
  have heq : f.priority = f'.priority := by
    simpa [headPriority, headFrame, hn, hn', hf, hf', BitVec.toNat_inj] using hsame
  have hmem : f.priority ∈ priorities (jobOf n) :=
    List.mem_map_of_mem (List.mem_append_left _ (Option.mem_toList.mpr hf))
  have hmem' : f'.priority ∈ priorities (jobOf n') :=
    List.mem_map_of_mem (List.mem_append_left _ (Option.mem_toList.mpr hf'))
  exact h.distinct k hk k' hk' hne _ (Option.mem_map_of_mem jobOf hn) _ (Option.mem_map_of_mem jobOf hn') hmem
    (heq ▸ hmem')

/-! ## The loop of `RUN` (R244) -/

/-- `RUN` loops, no request is set or waits, and every round it takes completes. -/
structure Looping (s : State) : Prop where
  running : s.drvRunning = true
  ready : RoundReady s
  lawful : (courseOf s).Lawful
  pauseClear : s.drvPauseReq = false
  stopClear : s.drvStopReq = false
  noArrival : s.arrivals = []

section Run

variable {s t : State}

theorem looping_of_driverInv (hinv : DriverInv s) (hrunning : s.drvRunning = true) (hdistinct : DistinctFrames s)
    (hpause : s.drvPauseReq = false) (hstop : s.drvStopReq = false) (harrivals : s.arrivals = []) : Looping s := by
  have hready : RoundReady s := ⟨hinv.running hrunning, hinv.quiet, hinv.phaseIdle, hinv.connectedNodup⟩
  have hself : NoSelfListeners s := fun k _ n hn => (hinv.listeners k n hn).1
  exact ⟨hrunning, hready, lawful_courseOf hself hdistinct, hpause, hstop, harrivals⟩

/-- An iteration of `RUN` that does not return is one `STEP` (R244). -/
theorem exec_run_of_step (hsetup : s.drvSetupDone = true) (hruns : runReturns s = false) (h : exec .step s = .next t) :
    exec .run s = .next (setRunning t true) := by
  obtain ⟨u, hu, ht⟩ := andThen_eq_next_iff.mp h
  cases ht
  exact execRun_eq_next_iff.mpr ⟨hsetup, .inr ⟨hruns, u, hu, rfl⟩⟩

theorem Looping.step_eq (h : Looping s) : step s = exec .run s := by
  have hfetch : fetch s = .issue .run s := by simp [fetch, acceptArrival, h.running, h.noArrival]
  rw [step, hfetch]

/-- The stop condition ends the loop. -/
theorem Looping.returns (h : Looping s) (hstop : stopCondition s = true) :
    step s = .next (setRunning (setResult s .none) false) := by
  rw [h.step_eq]
  exact execRun_eq_next_iff.mpr ⟨h.ready.1, .inl ⟨by simp [runReturns, hstop], rfl⟩⟩

/-- If somebody has a head frame and nobody is eligible, there is a head frame of a later time. -/
theorem drvTick_lt_lastHead (hgoes : stopCondition s = false) (hnobody : eligibleSlots (setBusTick s s.drvTick) = []) :
    s.drvTick < (courseOf s).lastHead := by
  unfold stopCondition at hgoes
  obtain ⟨k, hk, hhead⟩ := List.all_eq_false.mp hgoes
  cases hn : nodeAt s k with
  | none => simp [hn] at hhead
  | some n =>
    obtain ⟨f, hf⟩ : ∃ f, n.next = some f := Option.ne_none_iff_exists'.mp (by simpa [hn] using hhead)
    have hlate : ¬ f.time ≤ s.drvTick := by
      intro htime
      have heligible : eligible (setBusTick s s.drvTick) k = true := eligible_of_head hn hf htime
      have hmem : k ∈ eligibleSlots (setBusTick s s.drvTick) := mem_eligibleSlots_iff.mpr ⟨hk, heligible⟩
      exact List.ne_nil_of_mem hmem hnobody
    calc
      s.drvTick < f.time := Nat.lt_of_not_le hlate
      _ = (courseOf s).headTime k := by
        have hjob : (jobOf n).next = some f := hf
        simp [Course.headTime, courseOf_jobs, hn, hjob]
      _ ≤ (courseOf s).lastHead := Finset.le_sup (f := (courseOf s).headTime) (List.mem_toFinset.mpr hk)

/-- An iteration goes on looping, with less work left, or with none done and the tick closer to the last head frame. -/
theorem Looping.advances (h : Looping s) (hgoes : stopCondition s = false) :
    ∃ t, step s = .next t ∧ Looping t ∧
      ((courseOf t).work < (courseOf s).work ∨
        courseOf t = courseOf s ∧ (courseOf s).lastHead - t.drvTick < (courseOf s).lastHead - s.drvTick) := by
  have hself := noSelfListeners_of_lawful h.lawful
  have hdistinct : DistinctHeads (setBusTick s s.drvTick) := distinctHeads_of_lawful h.lawful
  obtain ⟨t, hround, hready⟩ := roundIsTotal (setBusTick s s.drvTick) h.ready hself (.inr hdistinct)
  have hruns : runReturns s = false := by simp [runReturns, hgoes, h.pauseClear, h.stopClear]
  have hstep := exec_run_of_step h.ready.1 hruns (exec_step_of_round hround)
  have hrest := restOf_of_nodeLevel rfl hround
  have hpause : t.drvPauseReq = false := (congrArg Rest.drvPauseReq hrest).trans h.pauseClear
  have hstop : t.drvStopReq = false := (congrArg Rest.drvStopReq hrest).trans h.stopClear
  have harrivals : t.arrivals = [] := (congrArg Rest.arrivals hrest).trans h.noArrival
  have looping (hlawful : (courseOf t).Lawful) : Looping (setRunning (setDrvTick t (s.drvTick + 1)) true) :=
    ⟨rfl, hready, hlawful, hpause, hstop, harrivals⟩
  refine ⟨_, h.step_eq.trans hstep, ?_⟩
  obtain ⟨hnobody, hcourse⟩ | ⟨w, hw, ok, hcourse⟩ :=
    courseOf_round (s := setBusTick s s.drvTick) h.ready hdistinct hround
  · have hlate := drvTick_lt_lastHead hgoes hnobody
    refine ⟨looping (hcourse ▸ h.lawful), .inr ⟨hcourse, ?_⟩⟩
    exact Nat.sub_lt_sub_left hlate (Nat.lt_succ_self _)
  · obtain ⟨hconnected, heligible⟩ := mem_eligibleSlots_iff.mp hw
    obtain ⟨n, f, hn, hf⟩ := exists_head_of_eligible heligible
    refine ⟨looping (hcourse ▸ h.lawful.settle.evictAtLimit), .inl ?_⟩
    have hjob : (courseOf s).jobs w = some (jobOf n) := Option.map_eq_some_iff.mpr ⟨n, hn, rfl⟩
    exact (congrArg Course.work hcourse).trans_lt (Course.work_round_lt hconnected hjob hf)

theorem run_succ_of_step {k : Nat} (h : step s = .next t) : Host.Core.run core (k + 1) s = Host.Core.run core k t := by
  have hcore : core.step s = .next t := h
  simp only [Host.Core.run, hcore]

end Run

/-- By the lexicographic order of the work left and the distance from the tick to the last head frame. -/
theorem Looping.terminates {s : State} (h : Looping s) :
    ∃ k t, Host.Core.run core k s = .next t ∧ t.drvRunning = false ∧ stopCondition t = true := by
  cases hstop : stopCondition s with
  | true => exact ⟨1, _, run_succ_of_step (h.returns hstop), rfl, hstop⟩
  | false =>
    obtain ⟨t, hstep, ht, hless⟩ := h.advances hstop
    obtain ⟨k, u, hrun, hend⟩ := ht.terminates
    exact ⟨k + 1, u, (run_succ_of_step hstep).trans hrun, hend⟩
termination_by ((courseOf s).work, (courseOf s).lastHead - s.drvTick)
decreasing_by
  obtain hwork | ⟨hcourse, htick⟩ := hless
  · exact Prod.Lex.left _ _ hwork
  · rw [hcourse]
    exact Prod.Lex.right _ htick

/-! ## The obligation -/

/-- Settles O45: the state is one of the loop, in which every iteration shrinks the measure until the stop condition
holds. -/
theorem runTerminates : Obligations.RunTerminates := by
  intro s hinv hrunning hdistinct hpause hstop harrivals
  exact (looping_of_driverInv hinv hrunning hdistinct hpause hstop harrivals).terminates

end Sys2Proof.Machine
end

section
/-!
The family of 70_reset_and_hazards.md: the hazard of priority 2047 (R301). Under `last_dominant` two eligible heads with
an identifier of eleven '1' leave arbitration without a winner, since nobody drives a '0'; a round without a winner gives
every node record back as it was; so the next iteration of `RUN` finds the same tie one tick later.
-/

namespace Sys2Proof.Machine

/-! ## A round whose tie at 2047 has no winner (R199, R224) -/

section Round

variable {s u : State} {k k' w i : Nat}

/-- The slot count and the node of every slot are all there is to the node records. -/
theorem nodes_eq_of_nodeAt {s t : State} (hslots : t.nodes.length = s.nodes.length)
    (hnode : ∀ k, nodeAt t k = nodeAt s k) : t.nodes = s.nodes := by
  refine List.ext_getElem hslots fun k hk hk' => ?_
  simpa [nodeAt, hk, hk'] using hnode k

/-- Step 8 undoes what arbitration on a quiet bus wrote in the node records (R224). -/
theorem nodeAt_roundReset_of_leftAt (hquiet : busQuiet s = true) (hleft : LeftAt s w i u) (k : Nat) :
    nodeAt (roundReset u) k = nodeAt s k := by
  rw [nodeAt_roundReset, hleft.connected, hleft.nodes]
  by_cases hk : k ∈ s.busConnected
  · obtain ⟨n, hn, hidle⟩ := idle_of_busQuiet hquiet hk
    by_cases hin : k ∈ contendersAt s w i <;> simp [hk, hin, hn, ← hidle]
  · have hout : k ∉ contendersAt s w i :=
      fun hin => hk (mem_eligibleSlots_iff.mp (mem_contendersAt_iff.mp hin).1).1
    rw [if_neg hk, if_neg hout]

theorem nodes_roundReset_of_leftAt (hquiet : busQuiet s = true) (hleft : LeftAt s w i u) :
    (roundReset u).nodes = s.nodes := by
  have hrest : restOf (roundReset u) = restOf s := restOf_roundReset.trans hleft.rest
  exact nodes_eq_of_nodeAt (congrArg Rest.slots hrest) (nodeAt_roundReset_of_leftAt hquiet hleft)

/-- A tie at 2047 under `last_dominant` has no winner: all indices pass without a dominant bit (R199). -/
theorem arbitrate_of_recessiveTie (hquiet : busQuiet s = true) (hpolicy : s.cfgDupIdPolicy = .lastDominant)
    (htied : TiedSmallest s k k') (hrecessive : headPriority s k = 2047) :
    ∃ u, arbitrate s = .next u ∧ u.seqWinner = none ∧ LeftAt s k 11 u := by
  obtain ⟨hsmallest, hseveral⟩ := hasSmallest_of_tiedSmallest htied
  obtain ⟨v, hleft, harb⟩ := (arbitrate_of_tied hquiet hsmallest hseveral).2 hpolicy
  rw [lastDomAt_eleven hsmallest.1, if_pos hrecessive] at harb
  exact ⟨setWinner (setBitIndex v 11) none 11, harb, rfl, hleft.of_eq rfl rfl fun _ => rfl⟩

/-- The whole round of such a tie keeps the node records and who is connected. -/
theorem exec_round_of_recessiveTie (hready : RoundReady s) (hpolicy : s.cfgDupIdPolicy = .lastDominant)
    (htied : TiedSmallest s k k') (hrecessive : headPriority s k = 2047) :
    ∃ t, exec .round s = .next t ∧ RoundReady t ∧ t.nodes = s.nodes ∧ t.busConnected = s.busConnected := by
  have hwired := wired_of_roundReady hready
  have hround := round_of_roundReady hready
  obtain ⟨hsetup, hquiet, -, -⟩ := hready
  obtain ⟨u, harb, hnone, hleft⟩ :=
    arbitrate_of_recessiveTie (s := setPhase (setPhase s .eligibility) .arbitration) hquiet hpolicy htied hrecessive
  have hbody : roundBody s = .next (roundReset u) := by simp only [roundBody, harb, andThen_next, hnone]
  have hsetup' : (roundReset u).drvSetupDone = true :=
    (congrArg Rest.drvSetupDone (restOf_roundBody hbody)).trans hsetup
  exact ⟨setResult (roundReset u) .none, exec_round_eq_next_iff.mpr ⟨_, hround.trans hbody, rfl⟩,
    roundReady_roundReset hsetup' (wired_of_arbitrate harb ⟨hwired.occupied, hwired.nodup⟩),
    nodes_roundReset_of_leftAt (s := setPhase (setPhase s .eligibility) .arbitration) hquiet hleft,
    roundReset_connected.trans hleft.connected⟩

end Round

/-! ## The loop that nobody leaves (R301) -/

/-- Slot k is connected and has a head frame whose time has come at the driver's tick. -/
def HeadDue (s : State) (k : Nat) : Prop := k ∈ s.busConnected ∧ ∃ f, headFrame s k = some f ∧ f.time ≤ s.drvTick

/-- `RUN` loops under `last_dominant` without a request, every head frame on the bus has priority 2047, and those of two
slots are due. -/
structure Blocked (s : State) (k k' : Nat) : Prop where
  running : s.drvRunning = true
  ready : RoundReady s
  lastDominant : s.cfgDupIdPolicy = .lastDominant
  pauseClear : s.drvPauseReq = false
  stopClear : s.drvStopReq = false
  noArrival : s.arrivals = []
  different : k ≠ k'
  due : HeadDue s k
  due' : HeadDue s k'
  recessive : ∀ j ∈ s.busConnected, ∀ f, headFrame s j = some f → f.priority.toNat = 2047

section Loop

variable {s t : State} {k k' : Nat}

theorem headFrame_congr (h : t.nodes = s.nodes) (k : Nat) : headFrame t k = headFrame s k := by
  rw [headFrame, headFrame, nodeAt_congr h]

theorem exists_node_of_headFrame {f : Frame} (h : headFrame s k = some f) :
    ∃ n, nodeAt s k = some n ∧ n.next = some f := Option.bind_eq_some_iff.mp h

/-- A head that is due takes part in the next round (R190, R243). -/
theorem HeadDue.mem_eligibleSlots (h : HeadDue s k) : k ∈ eligibleSlots (setBusTick s s.drvTick) := by
  obtain ⟨hk, f, hhead, htime⟩ := h
  obtain ⟨n, hn, hf⟩ := exists_node_of_headFrame hhead
  exact mem_eligibleSlots_iff.mpr ⟨hk, eligible_of_head (s := setBusTick s s.drvTick) hn hf htime⟩

/-- A head stays due as the tick goes on. -/
theorem HeadDue.later (h : HeadDue s k) (hnodes : t.nodes = s.nodes) (hconnected : t.busConnected = s.busConnected)
    (htick : s.drvTick ≤ t.drvTick) : HeadDue t k := by
  obtain ⟨hk, f, hhead, htime⟩ := h
  exact ⟨hconnected ▸ hk, f, (headFrame_congr hnodes k).trans hhead, htime.trans htick⟩

theorem Blocked.headPriority_eq (h : Blocked s k k') {j : Nat} (hj : j ∈ eligibleSlots (setBusTick s s.drvTick)) :
    headPriority (setBusTick s s.drvTick) j = 2047 := by
  obtain ⟨hconnected, heligible⟩ := mem_eligibleSlots_iff.mp hj
  obtain ⟨n, f, hn, hf⟩ := exists_head_of_eligible heligible
  have hhead : headFrame (setBusTick s s.drvTick) j = some f := Option.bind_eq_some_iff.mpr ⟨n, hn, hf⟩
  rw [headPriority, hhead]
  exact h.recessive j hconnected f hhead

theorem Blocked.tiedSmallest (h : Blocked s k k') : TiedSmallest (setBusTick s s.drvTick) k k' := by
  have hk := h.headPriority_eq h.due.mem_eligibleSlots
  have hk' := h.headPriority_eq h.due'.mem_eligibleSlots
  exact ⟨h.due.mem_eligibleSlots, h.due'.mem_eligibleSlots, h.different, hk.trans hk'.symm,
    fun _ hj => (hk.trans (h.headPriority_eq hj).symm).le⟩

theorem Blocked.runReturns_eq (h : Blocked s k k') : runReturns s = false := by
  obtain ⟨hk, f, hhead, -⟩ := h.due
  obtain ⟨n, hn, hf⟩ := exists_node_of_headFrame hhead
  exact runReturns_of_head hk hn hf h.pauseClear h.stopClear

/-- The step of a `RUN` that loops is its next iteration, if no request arrives (R249). -/
theorem step_of_running (hrunning : s.drvRunning = true) (harrivals : s.arrivals = []) : step s = exec .run s := by
  have hfetch : fetch s = .issue .run s := by simp [fetch, acceptArrival, hrunning, harrivals]
  rw [step, hfetch]

/-- One iteration of `RUN` leaves the node records and the block in place. -/
theorem Blocked.advances (h : Blocked s k k') : ∃ t, step s = .next t ∧ Blocked t k k' ∧ t.nodes = s.nodes := by
  obtain ⟨t, hround, hready, hnodes, hconnected⟩ :=
    exec_round_of_recessiveTie (s := setBusTick s s.drvTick) h.ready h.lastDominant h.tiedSmallest
      (h.headPriority_eq h.due.mem_eligibleSlots)
  have hrest := restOf_of_nodeLevel rfl hround
  have hstep := exec_run_of_step h.ready.1 h.runReturns_eq (exec_step_of_round hround)
  have still_due {j : Nat} (hj : HeadDue s j) : HeadDue (setRunning (setDrvTick t (s.drvTick + 1)) true) j :=
    hj.later hnodes hconnected (Nat.le_succ _)
  refine ⟨_, (step_of_running h.running h.noArrival).trans hstep, ?_, hnodes⟩
  exact {
    running := rfl
    ready := hready
    lastDominant := (congrArg Rest.cfgDupIdPolicy hrest).trans h.lastDominant
    pauseClear := (congrArg Rest.drvPauseReq hrest).trans h.pauseClear
    stopClear := (congrArg Rest.drvStopReq hrest).trans h.stopClear
    noArrival := (congrArg Rest.arrivals hrest).trans h.noArrival
    different := h.different
    due := still_due h.due
    due' := still_due h.due'
    recessive := fun j hj f hf =>
      h.recessive j (hconnected ▸ hj) f ((headFrame_congr (s := s) (t := t) hnodes j).symm.trans hf) }

/-- By induction on the number of steps. -/
theorem Blocked.forever (h : Blocked s k k') (m : Nat) :
    ∃ t, Host.Core.run core m s = .next t ∧ t.drvRunning = true ∧ t.nodes = s.nodes := by
  induction m generalizing s with
  | zero => exact ⟨s, rfl, h.running, rfl⟩
  | succ m ih =>
    obtain ⟨u, hstep, hblocked, hnodes⟩ := h.advances
    obtain ⟨t, hrun, hrunning, hsame⟩ := ih hblocked
    exact ⟨t, (run_succ_of_step hstep).trans hrun, hrunning, hsame.trans hnodes⟩

end Loop

/-! ## The obligation -/

/-- Settles O46: the two heads tie at 2047 in every round, which therefore has no winner and changes no node record, and
a head frame on the bus keeps the stop condition false. -/
theorem twoRecessiveHeadsBlockForever : Obligations.TwoRecessiveHeadsBlockForever := by
  intro s k k' hinv hrunning hpolicy hpause hstop harrivals hk hk' hne hdue hdue' hrecessive
  have hready : RoundReady s := ⟨hinv.running hrunning, hinv.quiet, hinv.phaseIdle, hinv.connectedNodup⟩
  exact Blocked.forever
    ⟨hrunning, hready, hpolicy, hpause, hstop, harrivals, hne, ⟨hk, hdue⟩, ⟨hk', hdue'⟩, hrecessive⟩

end Sys2Proof.Machine
end

section
/-!
Frame strings (41_frame.md section 3, 30_encoding.md sections 1 and 2): ENCODE puts the fields at the places of R82, and
DECODE reads a string exactly if it has that layout. Both turn on how `field` reads a concatenation. The last obligation
is the life of a corrupted frame.
-/

namespace Sys2Proof.Machine

/-! ## Fields of bit strings -/

section Fields

variable {s pre mid post : Bits} {i j m n : Nat}

theorem field_append_self (hi : pre.length = i) (hn : mid.length = n) : field (pre ++ (mid ++ post)) i n = mid := by
  rw [field, List.drop_left' hi, List.take_left' hn]

theorem length_field (h : i + n ≤ s.length) : (field s i n).length = n := by
  rw [field, List.length_take, List.length_drop]
  omega

/-- A field within a field. -/
theorem field_field (h : j + m ≤ n) : field (field s i n) j m = field s (i + j) m := by
  rw [field, field, field, List.drop_take, List.take_take, List.drop_drop, Nat.min_eq_left (by omega)]

/-- Two fields side by side are one. -/
theorem field_append_field (s : Bits) (i m n : Nat) : field s i m ++ field s (i + m) n = field s i (m + n) := by
  rw [field, field, field, List.take_add, List.drop_drop]

/-- A field that lies in the string is the numeral of its value (R11). -/
theorem bin_val_field (h : i + n ≤ s.length) : bin n (val (field s i n)) = field s i n := by
  calc
    bin n (val (field s i n)) = bin (field s i n).length (val (field s i n)) := by rw [length_field h]
    _ = field s i n := bin_val _

/-- The numeral of a number that passed through a register of its width. -/
theorem bin_toNat_ofNat (n v : Nat) : bin n (BitVec.ofNat n v).toNat = bin n v := by
  rw [BitVec.toNat_ofNat, bin_mod]

/-- A register holds what its own numeral stands for. -/
theorem ofNat_val_bin (x : BitVec n) : BitVec.ofNat n (val (bin n x.toNat)) = x := by
  rw [val_bin, Nat.mod_eq_of_lt x.isLt, BitVec.ofNat_toNat, BitVec.setWidth_eq]

end Fields

/-! ## The places of the fields (R82) -/

theorem wf_iff (f : Frame) : f.wf = true ↔ 1 ≤ f.data.length ∧ f.data.length ≤ 15 := by
  rw [Frame.wf, Bool.and_eq_true, decide_eq_true_iff, decide_eq_true_iff]

section Places

variable (f : Frame)

/-- The frame string in seven parts, cut where DECODE cuts it. -/
theorem frameBits_eq_parts :
    frameBits f =
      arbitrationId f ++
        (stuffBit f ++ (controlBits ++ (dlcString f ++ (dataBits f ++ (crcBits f ++ trailerBits))))) := by
  simp [frameBits, controlBits, trailerBits]

theorem length_controlBits : controlBits.length = 3 := rfl

theorem length_trailerBits : trailerBits.length = 12 := rfl

/-- The length of a frame string (R83). -/
theorem length_frameBits : (frameBits f).length = 46 + (stuffBit f).length + 8 * f.data.length := by
  simp only [frameBits_eq_parts, List.length_append, length_arbitrationId, length_controlBits, length_dlcString,
    length_dataBits, length_crcBits, length_trailerBits]
  omega

theorem field_identifier : field (frameBits f) 0 11 = arbitrationId f := by
  rw [frameBits_eq_parts]
  exact field_append_self (pre := []) rfl (length_arbitrationId f)

theorem field_stuffBit : field (frameBits f) 11 (stuffBit f).length = stuffBit f := by
  rw [frameBits_eq_parts]
  exact field_append_self (length_arbitrationId f) rfl

theorem field_controlBits : field (frameBits f) (11 + (stuffBit f).length) 3 = controlBits := by
  rw [frameBits_eq_parts, ← List.append_assoc]
  exact field_append_self (by simp) length_controlBits

theorem field_dlcString : field (frameBits f) (14 + (stuffBit f).length) 4 = dlcString f := by
  rw [frameBits_eq_parts, ← List.append_assoc, ← List.append_assoc]
  exact field_append_self (by simp [length_controlBits]; omega) (length_dlcString f)

theorem field_dataBits : field (frameBits f) (18 + (stuffBit f).length) (8 * f.data.length) = dataBits f := by
  rw [frameBits_eq_parts, ← List.append_assoc, ← List.append_assoc, ← List.append_assoc]
  exact field_append_self (by simp [length_controlBits]; omega) (length_dataBits f)

theorem field_crcBits : field (frameBits f) (18 + (stuffBit f).length + 8 * f.data.length) 16 = crcBits f := by
  rw [frameBits_eq_parts, ← List.append_assoc, ← List.append_assoc, ← List.append_assoc, ← List.append_assoc]
  exact field_append_self (by simp [length_controlBits]; omega) (length_crcBits f)

theorem field_trailerBits : field (frameBits f) (34 + (stuffBit f).length + 8 * f.data.length) 12 = trailerBits := by
  rw [frameBits_eq_parts, ← List.append_assoc, ← List.append_assoc, ← List.append_assoc, ← List.append_assoc,
    ← List.append_assoc, ← List.append_nil trailerBits]
  exact field_append_self (by simp [length_controlBits]; omega) length_trailerBits

end Places

/-! ## The data bytes (R87) -/

theorem messageBits_cons (b : Byte) (bytes : List Byte) :
    messageBits (b :: bytes) = bin 8 b.toNat ++ messageBits bytes := rfl

/-- Byte j of a message stands at 8 j. -/
theorem field_messageBits {bytes : List Byte} {j : Nat} {b : Byte} (h : bytes[j]? = some b) :
    field (messageBits bytes) (8 * j) 8 = bin 8 b.toNat := by
  induction bytes generalizing j with
  | nil => simp at h
  | cons c bytes ih =>
    rw [messageBits_cons]
    cases j with
    | zero =>
      obtain rfl : c = b := by simpa using h
      exact field_append_self (pre := []) rfl (length_bin 8 _)
    | succ j =>
      rw [field, Nat.mul_succ, Nat.add_comm, ← List.drop_drop, List.drop_left' (length_bin 8 _)]
      exact ih (by simpa using h)

theorem length_readBytes (s : Bits) (i n : Nat) : (readBytes s i n).length = n := by
  induction n generalizing i with
  | zero => rfl
  | succ n ih => rw [readBytes, List.length_cons, ih]

/-- DECODE's bytes are the message that stands in the string. -/
theorem messageBits_readBytes {s : Bits} {i n : Nat} (h : i + 8 * n ≤ s.length) :
    messageBits (readBytes s i n) = field s i (8 * n) := by
  induction n generalizing i with
  | zero => simp [readBytes, messageBits, field]
  | succ n ih =>
    rw [readBytes, messageBits_cons, bin_toNat_ofNat, bin_val_field (by omega), ih (by omega), field_append_field,
      Nat.mul_succ, Nat.add_comm]

/-- DECODE reads the bytes of a message back. -/
theorem readBytes_of_message {s : Bits} {i : Nat} {bytes : List Byte}
    (h : field s i (8 * bytes.length) = messageBits bytes) : readBytes s i bytes.length = bytes := by
  induction bytes generalizing i with
  | nil => rfl
  | cons b bytes ih =>
    rw [List.length_cons, Nat.mul_succ, Nat.add_comm] at h
    have hbyte : field s i 8 = bin 8 b.toNat := by
      rw [← Nat.add_zero i, ← field_field (n := 8 + 8 * bytes.length) (by omega), h, messageBits_cons]
      exact field_append_self (pre := []) rfl (length_bin 8 _)
    have hrest : field s (i + 8) (8 * bytes.length) = messageBits bytes := by
      rw [← field_field (n := 8 + 8 * bytes.length) le_rfl, h, messageBits_cons, field,
        List.drop_left' (length_bin 8 _)]
      exact List.take_of_length_le (length_dataBits ⟨0, 0, bytes, 0⟩).le
    rw [List.length_cons, readBytes, hbyte, ofNat_val_bin, ih hrest]

/-! ## DECODE (R138) -/

/-- The string s has the layout of R82 with n data bytes behind a stuff bit of length k. -/
structure HasLayout (s : Bits) (k n : Nat) : Prop where
  stuffLength : (stuffOf (field s 0 11)).length = k
  stuff : field s 11 k = stuffOf (field s 0 11)
  control : field s (11 + k) 3 = controlBits
  count : val (field s (14 + k) 4) = n
  nonempty : n ≠ 0
  length : s.length = 46 + k + 8 * n
  trailer : field s (34 + k + 8 * n) 12 = trailerBits

/-- The fields at their places in such a string. -/
def fieldsAt (s : Bits) (k n : Nat) : DecodedFields :=
  { priority := BitVec.ofNat 11 (val (field s 0 11))
    data := readBytes s (18 + k) n
    crc := BitVec.ofNat 16 (val (field s (18 + k + 8 * n) 16)) }

section Decode

variable {s : Bits} {k n : Nat} {d : DecodedFields}

/-- DECODE with the places of R82 written out. -/
theorem decodeFrame_eq (s : Bits) :
    decodeFrame s =
      let k := (stuffOf (field s 0 11)).length
      let n := val (field s (14 + k) 4)
      if s.length < 54 then none
      else if field s 11 k ≠ stuffOf (field s 0 11) then none
      else if field s (11 + k) 3 ≠ controlBits then none
      else if n = 0 then none
      else if s.length ≠ 46 + k + 8 * n then none
      else if field s (34 + k + 8 * n) 12 ≠ trailerBits then none
      else some (fieldsAt s k n) := by
  have hdlc (k : Nat) : dlcAt k = 14 + k := (frame_places k 0).1
  have hdata (k : Nat) : dataAt k = 18 + k := (frame_places k 0).2.1
  have hcrc (k n : Nat) : crcAt k n = 18 + k + 8 * n := (frame_places k n).2.2.1
  have htrailer (k n : Nat) : trailerAt k n = 34 + k + 8 * n := (frame_places k n).2.2.2.1
  have hlength (k n : Nat) : frameLength k n = 46 + k + 8 * n := (frame_places k n).2.2.2.2
  simp only [decodeFrame, hdlc, hdata, hcrc, htrailer, hlength]
  rfl

/-- DECODE checks the layout and reads the fields. -/
theorem decodeFrame_eq_some_iff : decodeFrame s = some d ↔ ∃ k n, HasLayout s k n ∧ d = fieldsAt s k n := by
  rw [decodeFrame_eq]
  constructor
  · intro h
    dsimp only at h
    split_ifs at h with _ hstuff hcontrol hempty hlength htrailer
    exact ⟨_, _, ⟨rfl, not_not.mp hstuff, not_not.mp hcontrol, rfl, hempty, not_not.mp hlength,
      not_not.mp htrailer⟩, (Option.some.inj h).symm⟩
  · rintro ⟨k, n, ⟨rfl, hstuff, hcontrol, rfl, hempty, hlength, htrailer⟩, rfl⟩
    dsimp only
    rw [if_neg (by omega), if_neg (not_not.mpr hstuff), if_neg (not_not.mpr hcontrol), if_neg hempty,
      if_neg (not_not.mpr hlength), if_neg (not_not.mpr htrailer)]

/-- A frame string has the layout, with the frame's fields in it (R81, R82). -/
theorem hasLayout_frameBits {f : Frame} (hwf : f.wf = true) :
    HasLayout (frameBits f) (stuffBit f).length f.data.length := by
  obtain ⟨hmin, hmax⟩ := (wf_iff f).mp hwf
  have hid := field_identifier f
  have hcount : val (dlcString f) = f.data.length := by
    rw [dlcString, val_bin]
    exact Nat.mod_eq_of_lt (Nat.lt_succ_of_le hmax)
  exact ⟨by rw [hid]; rfl, by rw [hid, field_stuffBit]; rfl, field_controlBits f, by rw [field_dlcString, hcount],
    by omega, length_frameBits f, field_trailerBits f⟩

theorem fieldsAt_frameBits (f : Frame) :
    fieldsAt (frameBits f) (stuffBit f).length f.data.length = ⟨f.priority, f.data, f.crc⟩ := by
  rw [fieldsAt, field_identifier, field_crcBits, arbitrationId, crcBits, readBytes_of_message (field_dataBits f)]
  exact congrArg₂ (DecodedFields.mk · f.data ·) (ofNat_val_bin f.priority) (ofNat_val_bin f.crc)

/-- The first law (R138). -/
theorem decodeFrame_frameBits {f : Frame} (hwf : f.wf = true) :
    decodeFrame (frameBits f) = some ⟨f.priority, f.data, f.crc⟩ :=
  decodeFrame_eq_some_iff.mpr ⟨_, _, hasLayout_frameBits hwf, (fieldsAt_frameBits f).symm⟩

/-- A frame with the fields DECODE has read; the time stands in no string. -/
def decodedFrame (d : DecodedFields) : Frame := ⟨0, d.priority, d.data, d.crc⟩

theorem HasLayout.wf (h : HasLayout s k n) : (decodedFrame (fieldsAt s k n)).wf = true := by
  have hlen : (field s (14 + k) 4).length = 4 := length_field (by have := h.length; omega)
  have hmax : n < 2 ^ 4 := by
    rw [← h.count, ← congrArg (2 ^ ·) hlen]
    exact val_lt _
  rw [wf_iff, decodedFrame, fieldsAt, length_readBytes]
  exact ⟨Nat.one_le_iff_ne_zero.mpr h.nonempty, Nat.le_of_lt_succ hmax⟩

/-- A string with the layout is put together from its fields, and they are those of the decoded frame (R81). -/
theorem HasLayout.frameBits_eq (h : HasLayout s k n) : frameBits (decodedFrame (fieldsAt s k n)) = s := by
  have hlen := h.length
  have hid : arbitrationId (decodedFrame (fieldsAt s k n)) = field s 0 11 :=
    (bin_toNat_ofNat 11 _).trans (bin_val_field (by omega))
  have hstuff : stuffBit (decodedFrame (fieldsAt s k n)) = field s 11 k := by rw [stuffBit, hid, h.stuff]
  have hdlc : dlcString (decodedFrame (fieldsAt s k n)) = field s (14 + k) 4 := by
    rw [← bin_val_field (i := 14 + k) (n := 4) (by omega), h.count]
    exact congrArg (bin 4) (length_readBytes s _ n)
  have hdata : dataBits (decodedFrame (fieldsAt s k n)) = field s (18 + k) (8 * n) := messageBits_readBytes (by omega)
  have hcrc : crcBits (decodedFrame (fieldsAt s k n)) = field s (18 + k + 8 * n) 16 :=
    (bin_toNat_ofNat 16 _).trans (bin_val_field (by omega))
  rw [frameBits_eq_parts, hid, hstuff, ← h.control, hdlc, hdata, hcrc, ← h.trailer]
  have join {i m j : Nat} (hj : i + m = j) : field s i m ++ s.drop j = s.drop i := by
    rw [field, ← hj, ← List.drop_drop, List.take_append_drop]
  have hend : field s (34 + k + 8 * n) 12 = s.drop (34 + k + 8 * n) :=
    List.take_of_length_le (by rw [List.length_drop]; omega)
  rw [hend, join (by omega), join rfl, join (by omega), join (by omega), join rfl, join rfl, List.drop_zero]

end Decode

/-! ## The obligations -/

/-- Settles O14: a frame string has the layout DECODE checks, and the fields at its places are the frame's. -/
theorem frameDecodeInvertsEncode : Obligations.FrameDecodeInvertsEncode := by
  intro f s hwf
  rw [exec, execDecode, decodeFrame_frameBits hwf]
  rfl

/-- Settles O15: a string DECODE accepts is the string of the frame it has read; a frame's own string is accepted. -/
theorem frameDecodeAcceptsOnlyEncodings : Obligations.FrameDecodeAcceptsOnlyEncodings := by
  intro bits s
  cases hdecode : decodeFrame bits with
  | some d =>
    obtain ⟨k, n, hlayout, rfl⟩ := decodeFrame_eq_some_iff.mp hdecode
    refine .inl ⟨_, hlayout.wf, hlayout.frameBits_eq, ?_⟩
    rw [exec, execDecode, hdecode]
    rfl
  | none =>
    refine .inr ⟨fun f hwf heq => ?_, ?_⟩
    · rw [← heq, decodeFrame_frameBits hwf] at hdecode
      cases hdecode
    · rw [exec, execDecode, hdecode]
      rfl

/-- Settles O13: the string is the fields one after the other; the three control bits and the trailer are fields of
which the statement names the parts. -/
theorem encodeFieldPositions : Obligations.EncodeFieldPositions := by
  intro f s hwf
  obtain ⟨hmin, hmax⟩ := (wf_iff f).mp hwf
  have hstuff : (stuffBit f).length ≤ 1 := length_stuffOf _
  have hlen := length_frameBits f
  have control {i : Nat} (j : Nat) (hj : j + 1 ≤ 3) (hi : 11 + (stuffBit f).length + j = i) :
      field (frameBits f) i 1 = field controlBits j 1 := by
    rw [← field_controlBits f, field_field hj, hi]
  have trailer {i : Nat} (j m : Nat) (hj : j + m ≤ 12)
      (hi : 34 + (stuffBit f).length + 8 * f.data.length + j = i) :
      field (frameBits f) i m = field trailerBits j m := by
    rw [← field_trailerBits f, field_field hj, hi]
  refine ⟨frameBits f, rfl, hlen, by omega, by omega, field_identifier f, field_stuffBit f,
    control 0 (by decide) rfl, control 1 (by decide) (by omega), control 2 (by decide) (by omega), field_dlcString f,
    fun j b hb => ?_, field_crcBits f, trailer 0 2 (by decide) rfl, trailer 2 7 (by decide) (by omega),
    trailer 9 3 (by decide) (by omega)⟩
  have hj : j < f.data.length := (List.getElem?_eq_some_iff.mp hb).1
  rw [← field_field (n := 8 * f.data.length) (by omega), field_dataBits]
  exact field_messageBits hb

/-- Settles O19: a new frame carries the CRC of its data, which no longer is that of the data with one bit flipped, and
the repair sets it again. -/
theorem corruptionLifecycle : Obligations.CorruptionLifecycle := by
  intro time data priority byteIndex bitIndex s hlow hhigh hlen hbyte hbit
  have hdata : data ≠ [] := List.ne_nil_of_length_pos (Nat.zero_lt_of_lt hbyte)
  have hcrc := crcDetectsEverySingleBitFlip data byteIndex bitIndex hbyte hbit
  refine ⟨newFrame time data priority.toNat, _, _, exec_construct_of_legal hlow hhigh hdata hlen, ?_,
    exec_corrupt s, ?_, exec_repair _ s, ?_, rfl, fun hsame => hcrc (congrArg crc16 hsame)⟩
  · rw [exec_isvalid, frameValid_newFrame]
  · have hinvalid : frameValid (corruptFrame (newFrame time data priority.toNat) byteIndex bitIndex) = false :=
      beq_false_of_ne hcrc
    rw [exec_isvalid, hinvalid]
  · rw [exec_isvalid, frameValid_repairFrame]

end Sys2Proof.Machine
end

section
/-!
Commands and the step that runs them (30_encoding.md section 6, 45_driver.md R249). Encoding and decoding agree on the
operations whose listener sets are canonical lists, and the decoder gives no others.
-/

namespace Sys2Proof.Machine

/-! ## The decoder (R93, R94) -/

/-- The listener sets of an operation are held as their canonical lists (log entry 8). -/
def Canonical : Instr → Prop
  | .nodeInit _ _ listeners _ => ascending listeners = true
  | .setup _ _ nodeSpecs => ∀ n ∈ nodeSpecs, ascending n.listeners = true
  | _ => True

section Decoder

variable {i : Instr} {op : BitVec 5} {args : Args}

theorem ascending_of_wf {n : NodeSpec} (h : n.wf = true) : ascending n.listeners = true := by
  rw [NodeSpec.wf, Bool.and_eq_true] at h
  exact h.1

theorem canonical_of_wf (h : i.wf = true) : Canonical i := by
  cases i with
  | nodeInit k id listeners frames =>
    rw [Instr.wf, Bool.and_eq_true] at h
    exact h.1
  | setup limit policy specs => exact fun n hn => ascending_of_wf (List.all_eq_true.mp h n hn)
  | _ => trivial

theorem canonSpec_of_ascending {n : NodeSpec} (h : ascending n.listeners = true) : canonSpec n = n := by
  rw [canonSpec, canonSet_of_ascending h]

/-- The command of an operation in canonical form names it (R93). -/
theorem decode_encode (h : Canonical i) : decode (encode i).op (encode i).args = .ok i := by
  cases i with
  | nodeInit k id listeners frames =>
    have hset : canonSet listeners = listeners := canonSet_of_ascending h
    exact congrArg (fun set => Except.ok (Instr.nodeInit k id set frames)) hset
  | setup limit policy specs =>
    have hspecs : specs.map canonSpec = specs :=
      (List.map_congr_left fun n hn => canonSpec_of_ascending (h n hn)).trans (List.map_id specs)
    exact congrArg (fun specs => Except.ok (Instr.setup limit policy specs)) hspecs
  | _ => rfl

/-- Codes 0x1B to 0x1F name no operation (R93, X10). -/
theorem decode_of_reserved (h : 0x1B ≤ op.toNat) (args : Args) : decode op args = .error .reservedCode := by
  have hcode : op.toNat = 0x1B ∨ op.toNat = 0x1C ∨ op.toNat = 0x1D ∨ op.toNat = 0x1E ∨ op.toNat = 0x1F := by
    have := op.isLt
    omega
  rcases hcode with h | h | h | h | h <;> simp only [decode, h]

theorem eq_of_takeNone {j : Instr} (h : takeNone j args = .ok i) : i = j := by
  cases args <;> cases h
  rfl

theorem exists_of_takeNode {mk : Nat → Instr} (h : takeNode mk args = .ok i) : ∃ k, i = mk k := by
  cases args <;> cases h
  exact ⟨_, rfl⟩

theorem exists_of_takeFrame {mk : Frame → Instr} (h : takeFrame mk args = .ok i) : ∃ f, i = mk f := by
  cases args <;> cases h
  exact ⟨_, rfl⟩

/-- A decoded operation has the code it was read from, and its listener sets are canonical lists. -/
theorem code_of_decode (h : decode op args = .ok i) : (encode i).op = op ∧ Canonical i := by
  unfold decode at h
  split at h <;> rename_i hop
  case h_1 | h_20 | h_21 | h_23 | h_24 | h_25 | h_26 | h_27 =>
    obtain rfl := eq_of_takeNone h
    exact ⟨(BitVec.eq_of_toNat_eq hop).symm, trivial⟩
  case h_5 | h_8 | h_9 =>
    obtain ⟨f, rfl⟩ := exists_of_takeFrame h
    exact ⟨(BitVec.eq_of_toNat_eq hop).symm, trivial⟩
  case h_11 | h_12 | h_13 | h_14 | h_15 | h_16 | h_17 | h_18 | h_19 =>
    obtain ⟨k, rfl⟩ := exists_of_takeNode h
    exact ⟨(BitVec.eq_of_toNat_eq hop).symm, trivial⟩
  case h_2 | h_3 | h_4 | h_6 | h_7 =>
    cases args <;> cases h
    exact ⟨(BitVec.eq_of_toNat_eq hop).symm, trivial⟩
  case h_10 =>
    cases args <;> cases h
    exact ⟨(BitVec.eq_of_toNat_eq hop).symm, ascending_canonSet _⟩
  case h_22 =>
    cases args <;> cases h
    refine ⟨(BitVec.eq_of_toNat_eq hop).symm, fun n hn => ?_⟩
    obtain ⟨m, -, rfl⟩ := List.mem_map.mp hn
    exact ascending_canonSet _
  case h_28 => cases h

end Decoder

/-! ## The step (R249) -/

section Step

variable {s u : State} {c : Command} {rest : List Command} {i : Instr} {r : Refusal}

theorem step_of_issue (h : fetch s = .issue i u) : step s = exec i u := by
  rw [step, h]

theorem step_of_refuse (h : fetch s = .refuse r) : step s = .refused r := by
  rw [step, h]

theorem fetch_of_running (h : s.drvRunning = true) : fetch s = .issue .run (acceptArrival s) := if_pos h

/-- The fetch of a command from an idle sequencer is what its code and operands name, if the host may issue it. -/
theorem fetch_of_command (hrun : s.drvRunning = false) (hphase : s.seqPhase = .idle) (hc : s.commands = c :: rest) :
    (∀ r, readCommand c = .error r → fetch s = .refuse r) ∧
      ∀ i, readCommand c = .ok i →
        (isDirect i s = true → fetch s = .refuse .directNodeCommand) ∧
        (isDirect i s = false → fetch s = .issue i { s with commands := rest }) := by
  refine ⟨fun r hread => ?_, fun i hread => ⟨fun hdirect => ?_, fun hdirect => ?_⟩⟩
  · simp [fetch, hrun, hphase, hc, hread]
  · simp [fetch, hrun, hphase, hc, hread, hdirect]
  · simp [fetch, hrun, hphase, hc, hread, hdirect]

theorem readCommand_of_decode (h : decode c.op c.args = .ok i) :
    readCommand c = if i.wf then .ok i else .error .illFormedOperand := by
  rw [readCommand, h]

theorem readCommand_of_reject {e : CommandReject} (h : decode c.op c.args = .error e) :
    readCommand c = .error (rejectRefusal e) := by
  rw [readCommand, h]

/-- The requests that reach a looping RUN, as the next entry of the arrivals gives them. -/
theorem acceptArrival_eq (s : State) :
    acceptArrival s =
      { s with
        arrivals := s.arrivals.tail
        drvPauseReq := s.drvPauseReq || (s.arrivals.head?.map Arrival.pause).getD false
        drvStopReq := s.drvStopReq || (s.arrivals.head?.map Arrival.stop).getD false } := by
  unfold acceptArrival
  split
  next h =>
    cases s
    cases h
    simp
  next a rest h => simp [h]

end Step

/-! ## The obligations -/

/-- Settles O1: each row by computation; a listener set has the members of the list it was made from. -/
theorem commandTableDecodes : Obligations.CommandTableDecodes := by
  refine ⟨fun op args h => decode_of_reserved h args, rfl, fun _ => rfl, fun _ _ => rfl, fun _ _ _ => rfl, fun _ => rfl,
    fun _ => rfl, fun _ _ _ => rfl, fun _ => rfl, fun _ => rfl,
    fun k id listeners frames => ⟨canonSet listeners, fun _ => mem_canonSet, ascending_canonSet listeners, rfl⟩,
    fun _ => rfl, fun _ => rfl, fun _ => rfl, fun _ => rfl, fun _ => rfl, fun _ => rfl, fun _ => rfl, fun _ => rfl,
    fun _ => rfl, rfl, rfl, fun limit policy specs => ?_, rfl, rfl, rfl, rfl, rfl⟩
  refine ⟨specs.map canonSpec, List.length_map .., fun j n hn => ⟨canonSpec n, ?_, rfl, rfl, ?_⟩, rfl⟩
  · rw [List.getElem?_map, hn, Option.map_some]
  · exact ⟨fun _ => mem_canonSet, ascending_canonSet n.listeners⟩

/-- Settles O2: a well-formed operation is in canonical form, so its command decodes to it. -/
theorem decodeEncodeAgree : Obligations.DecodeEncodeAgree :=
  fun _ hwf => decode_encode (canonical_of_wf hwf)

/-- Settles O3: row by row the decoded operation has the code of the row, and its listener sets are canonical. -/
theorem decodedOperationReencodes : Obligations.DecodedOperationReencodes := by
  intro op args i h
  obtain ⟨hcode, hcanonical⟩ := code_of_decode h
  exact ⟨hcode, decode_encode hcanonical⟩

/-- Settles O4: the fetch reads the command, and the host may issue the operation. -/
theorem stepRunsDecodedCommand : Obligations.StepRunsDecodedCommand := by
  intro s c rest i hrun hphase hc hdecode hwf hissue
  have hread : readCommand c = .ok i := by rw [readCommand_of_decode hdecode, if_pos hwf]
  have hdirect : isDirect i s = false := by
    rw [← Bool.not_eq_true, isDirect, Bool.and_eq_true, Bool.and_eq_true, Bool.not_eq_true']
    rintro ⟨⟨hlevel, hsetup⟩, hstrap⟩
    simp [hissue hlevel hsetup] at hstrap
  exact step_of_issue (((fetch_of_command hrun hphase hc).2 i hread).2 hdirect)

/-- Settles O5: what the fetch answers in each of these cases. -/
theorem stepOtherwise : Obligations.StepOtherwise := by
  refine ⟨fun s hrun => ?_, fun s hrun hc => ?_, fun s c rest hrun hphase hc => ?_⟩
  · rw [step_of_issue (fetch_of_running hrun), acceptArrival_eq]
  · have hquiescent : fetch s = .quiescent := by simp [fetch, hrun, hc]
    rw [step, hquiescent]
  · obtain ⟨hrejected, hread⟩ := fetch_of_command hrun hphase hc
    refine ⟨fun hreserved => ?_, fun hform => ?_, fun i hdecode hwf => ?_, fun i hdecode hwf hlevel hsetup hstrap => ?_⟩
    · exact step_of_refuse (hrejected _ (readCommand_of_reject (decode_of_reserved hreserved c.args)))
    · exact step_of_refuse (hrejected _ (readCommand_of_reject hform))
    · exact step_of_refuse (hrejected _ (by rw [readCommand_of_decode hdecode, hwf]; rfl))
    · have hok : readCommand c = .ok i := by rw [readCommand_of_decode hdecode, if_pos hwf]
      exact step_of_refuse ((hread i hok).1 (by simp [isDirect, hlevel, hsetup, hstrap]))

end Sys2Proof.Machine
end

section
/-!
EVICT (42_node.md R175), the refusals of operations that name a slot (log entry 9), a round with nobody eligible
(43_arbiter.md R200), one iteration of RUN (45_driver.md R244), and the invariants at reset (10_state.md R50).
-/

namespace Sys2Proof.Machine

/-! ## Slots without a node, and occupied slots -/

section Slots

variable {s : State} {k j m : Nat} {n : Node} {specs : List NodeSpec}

theorem nodeInit_of_occupied {id : Nat} {listeners : List Nat} {frames : List Frame} (h : nodeAt s k = some n) :
    nodeInit k id listeners frames s = .refused .slotOccupied := by
  rw [nodeInit, if_neg (Nat.not_le.mpr (lt_of_nodeAt h)), if_pos (by rw [h]; rfl)]

theorem exec_nodeInit_of_refused {id : Nat} {listeners : List Nat} {frames : List Frame} {r : Refusal}
    (h : nodeInit k id listeners frames s = .refused r) : exec (.nodeInit k id listeners frames) s = .refused r := by
  rw [exec, execNodeInit, h, andThen_refused]

/-- The loop of `SETUP` stops at the first slot that holds a node, if it has launched every spec before it (R241). -/
theorem setupNodes_of_occupied (hfree : FreeSlots s j m) (hn : nodeAt s (j + m) = some n) (hm : m < specs.length)
    (hself : ∀ i < m, ∀ x, specs[i]? = some x → x.id ∉ x.listeners) :
    setupNodes j specs s = .refused .slotOccupied := by
  induction m generalizing j s specs with
  | zero =>
    obtain ⟨x, rest, rfl⟩ := List.exists_cons_of_length_pos hm
    rw [setupNodes, nodeInit_of_occupied (k := j) hn, andThen_refused]
  | succ m ih =>
    obtain ⟨x, rest, rfl⟩ := List.exists_cons_of_length_pos (Nat.zero_lt_of_lt hm)
    have hx : x.id ∉ x.listeners := hself 0 (Nat.succ_pos m) x rfl
    rw [setupNodes_cons_of_free hfree hx]
    refine ih (freeSlots_placeSpec hfree) ?_ (Nat.lt_of_succ_lt_succ hm)
      fun i hi y hy => hself (i + 1) (Nat.succ_lt_succ hi) y hy
    have hlater : j + 1 + m ≠ j := by omega
    rw [Nat.add_right_comm] at hlater ⊢
    exact (nodeAt_putNode_ne hlater).trans hn

end Slots

/-! ## Nobody eligible (R200) -/

/-- The state in which a round from s arbitrates (R210). -/
abbrev atArbitration (s : State) : State := setPhase (setPhase s .eligibility) .arbitration

section Nobody

variable {s : State} {ks : List Nat}

/-- Step 8 changes no node that is Idle (R224). -/
theorem forSlots_idleStep_of_idle (h : ∀ k ∈ ks, statusIs s .idle k = true) : forSlots idleStep ks s = s := by
  induction ks with
  | nil => rfl
  | cons k ks ih =>
    obtain ⟨hk, hks⟩ := List.forall_mem_cons.mp h
    rw [forSlots_cons, idleStep, if_pos hk, ih hks]

theorem enterEligible_of_nobody (h : eligibleSlots s = []) : enterEligible s = s := by
  have hnobody : s.busConnected.filter (eligible s) = [] := h
  rw [enterEligible, hnobody]
  rfl

/-- Arbitration with nobody eligible writes its registers and nothing else (R196, R200). -/
theorem arbitrate_eq_of_nobody (hquiet : busQuiet s = true) (h : eligibleSlots s = []) :
    arbitrate s = .next (setWinner (setBitIndex s 11) none 0) := by
  have hnobody : contenders (setWinner s none 0) = [] := by
    have hleft := contenders_of_leftAt hquiet (leftAt_enterEligible s 0)
    rwa [enterEligible_of_nobody (s := setWinner s none 0) h, contendersAt_zero, h] at hleft
  have hnobody' : contenders (setBitIndex (setWinner s none 0) 11) = [] := hnobody
  rw [arbitrate, enterEligible_of_nobody (s := setWinner s none 0) h, arbLoop_of_nobody _ hnobody, finishArbitration,
    if_neg Bool.false_ne_true, exhaust, hnobody']
  rfl

/-- A round without a winner ends with step 8 (R210). -/
theorem roundBody_of_no_winner {u : State} (harb : arbitrate (atArbitration s) = .next u)
    (hnone : u.seqWinner = none) : roundBody s = .next (roundReset u) := by
  simp only [roundBody, harb, andThen_next, hnone]

/-- Step 8 of a round that has changed no node record (R224). -/
theorem roundReset_of_quiet (hquiet : busQuiet s = true) : roundReset s = setPhase (emit s .roundReset) .idle := by
  rw [busQuiet, Bool.and_eq_true, List.all_eq_true, Option.isNone_iff_eq_none] at hquiet
  obtain ⟨hidle, hbus⟩ := hquiet
  have hsame : forSlots idleStep s.busConnected (setPhase s .roundReset) = setPhase s .roundReset :=
    forSlots_idleStep_of_idle hidle
  rw [roundReset, hsame]
  simp [setPhase, emit, setOnBus, hbus]

end Nobody

/-- The stop condition of RUN (R244). -/
theorem stopCondition_eq_true_iff {s : State} :
    stopCondition s = true ↔ ∀ k ∈ s.busConnected, ∀ n, nodeAt s k = some n → n.next = none := by
  rw [stopCondition, List.all_eq_true]
  refine forall₂_congr fun k _ => ?_
  cases nodeAt s k <;> simp

/-! ## The obligations -/

/-- Settles O26: EVICT is three writes, and the node's id is still the one it had. -/
theorem evictDisconnects : Obligations.EvictDisconnects := by
  intro k n s hn
  have hnode : nodeAt (setConnected (putNode s k { n with status := .evicted }) (s.busConnected.filter (· ≠ k))) k =
      some { n with status := .evicted } := nodeAt_putNode_self (lt_of_nodeAt hn)
  rw [exec, execEvict, withNode_of_node hn, evict, takeError, updateNode_of_node _ hn, disconnect, putNode_busConnected,
    emitNode_of_node _ hnode]
  rfl

/-- Settles O27: the operand form, the checks of NODE_INIT, and the loop of SETUP up to the occupied slot. -/
theorem nodeOperandNamesANode : Obligations.NodeOperandNamesANode := by
  refine ⟨fun k s hnone => ?_, fun k id listeners frames s => ⟨fun hslot => ?_, fun n hn => ?_⟩,
    fun limit policy specs s hsetup hnodup => ⟨fun hmany => ?_, fun j n hslots hlimit hj hn hbefore => ?_⟩⟩
  · have refused {f : Node → Host.Outcome State Fault Refusal} : withNode s k f = .refused .noNodeInSlot :=
      withNode_of_none hnone
    have htransmit : transmit k s = .refused .noNodeInSlot := refused
    exact ⟨refused, refused, refused, refused, by rw [exec, execTransmit, htransmit, andThen_refused], refused, refused,
      refused, refused⟩
  · exact exec_nodeInit_of_refused (by rw [nodeInit, if_pos hslot])
  · exact exec_nodeInit_of_refused (nodeInit_of_occupied hn)
  · rw [exec, execSetup, if_neg (by simp [hsetup]), if_neg (by simp [distinctIds_iff, hnodup]), if_pos hmany]
  · have hfree : FreeSlots { s with cfgErrorLimit := limit, cfgDupIdPolicy := policy } 0 j :=
      ⟨by simpa using (hj.trans_le hslots).le, fun i _ hi => (hbefore i (by omega)).1⟩
    rw [exec_setup_of_preconditions hsetup hnodup hslots (Nat.ne_of_gt hlimit),
      setupNodes_of_occupied hfree ((congrArg _ (Nat.zero_add j)).trans hn) hj fun i hi => (hbefore i hi).2,
      andThen_refused]

/-- Settles O31: without contenders the comparator writes its registers only, and step 8 finds every node Idle. -/
theorem nobodyEligible : Obligations.NobodyEligible := by
  intro s hnobody hquiet
  refine ⟨?_, fun hsetup hphase => ?_⟩
  · exact exec_arbitrate_of_next hquiet (arbitrate_eq_of_nobody hquiet hnobody)
  · have hbody := roundBody_of_no_winner (arbitrate_eq_of_nobody (s := atArbitration s) hquiet hnobody) rfl
    have hquiet' : busQuiet (setWinner (setBitIndex (atArbitration s) 11) none 0) = true := hquiet
    rw [roundReset_of_quiet hquiet'] at hbody
    rw [exec_round_eq_next_iff]
    refine ⟨_, round_eq_next_iff.mpr ⟨hsetup, hquiet, hphase, hbody⟩, ?_⟩
    simp [setResult, setPhase, emit, setWinner, setBitIndex, hphase]

/-- Settles O42: the conditions of the statement decide `runReturns`, and an iteration that does not return is one
STEP, which completes as `StepRunsOneRound` says. -/
theorem runLoopsOverStep : Obligations.RunLoopsOverStep := by
  refine ⟨fun s hsetup => if_pos hsetup, fun s hsetup hreturn => ?_, fun s hsetup hstop hpause hhead => ?_⟩
  · have hruns : runReturns s = true := by
      rw [runReturns, Bool.or_eq_true, Bool.or_eq_true, stopCondition_eq_true_iff]
      tauto
    exact execRun_eq_next_iff.mpr ⟨hsetup, .inl ⟨hruns, rfl⟩⟩
  · obtain ⟨k, hk, n, hn, hnext⟩ := hhead
    obtain ⟨f, hf⟩ := Option.ne_none_iff_exists'.mp hnext
    have hruns : runReturns s = false := runReturns_of_head hk hn hf hpause hstop
    refine ⟨fun t hstep => exec_run_of_step hsetup hruns hstep, fun hready hself hpolicy => ?_⟩
    obtain ⟨t, hstep, -, htick, -⟩ := stepRunsOneRound.2.2 s hready hself hpolicy
    exact ⟨_, exec_run_of_step hsetup hruns hstep, rfl, htick⟩

theorem driverInv_resetOf (m : Nat) : DriverInv (State.resetOf m) := by
  have no_node {P : Prop} {k : Nat} {n : Node} (h : nodeAt (State.resetOf m) k = some n) : P := by simp at h
  exact {
    phaseIdle := rfl
    nodeFrames := fun _ _ h => no_node h
    busFrame := nofun
    queue := fun _ _ h => no_node h
    listeners := fun _ _ h => no_node h
    connectedNodes := nofun
    connectedNodup := List.nodup_nil
    errorLimit := nofun
    running := nofun
    beforeSetup := fun _ => ⟨rfl, rfl, rfl⟩
    tickOrder := le_rfl
    eventTicks := nofun
    indices := ⟨Nat.zero_le _, Nat.zero_le _⟩
    quiet := rfl
    idsDistinct := fun _ _ _ _ h => no_node h
    evictedIff := fun _ _ h => no_node h
    connectedBelow := fun _ _ h => no_node h
    evictedAt := fun _ _ h => no_node h
    noNodesBeforeSetup := fun _ _ => nodeAt_resetOf m }

/-- Settles O47: no slot holds a node, the bus is empty and no tick has passed. -/
theorem resetMeetsDriverInvariant : Obligations.ResetMeetsDriverInvariant :=
  ⟨driverInv_resetOf, driverInv_resetOf _⟩

end Sys2Proof.Machine
end

section
/-!
What an operation can write, said once. An arbitration is a sequence of four kinds of writes, a round or a command on a
node one of a few more; the slots whose node records it writes are named with it. Every property of the operations below
is then a check of each kind of write.
-/

namespace Sys2Proof.Machine

open Relation

/-! ## The writes -/

/-- One write to a node record: a status (R34), a receive error (R171), the head popped (R167), or a transmit error with
the head repaired (R169). -/
inductive NodeWrite (n : Node) : Node → Prop
  | status (st : Status) : NodeWrite n { n with status := st }
  | receiveError : NodeWrite n { n with receiveErrors := n.receiveErrors + 1 }
  | pop : NodeWrite n (popNext n)
  | failure : NodeWrite n { n with transmitErrors := n.transmitErrors + 1, next := n.next.map repairFrame }

/-- One write of an arbitration (R190 to R199): an event, a status in one of the slots of S, or an arbitration
register within its range (R44). -/
inductive ArbWrite (S : Set Nat) : State → State → Prop
  | emit (s : State) (e : EventKind) : ArbWrite S s (emit s e)
  | status (s : State) {k : Nat} (st : Status) (hk : k ∈ S) :
      ArbWrite S s (updateNode s k ({ · with status := st }))
  | bitIndex (s : State) {i : Nat} (hi : i ≤ 11) : ArbWrite S s (setBitIndex s i)
  | winner (s : State) (o : Option Nat) {i : Nat} (hi : i ≤ 11 ∨ i = s.seqWonAt) : ArbWrite S s (setWinner s o i)

/-- One write of a round or of a command on a node (R160 to R175, R213 to R224): one of an arbitration, a node record in
one of the slots of S, a slot taken out of `bus.connected`, a head frame put on the bus, the bus cleared, or one of the
sequencer's registers. -/
inductive RoundWrite (S : Set Nat) : State → State → Prop
  | arb {s t : State} (h : ArbWrite S s t) : RoundWrite S s t
  | node (s : State) {k : Nat} {f : Node → Node} (hk : k ∈ S) (hf : ∀ n, NodeWrite n (f n)) :
      RoundWrite S s (updateNode s k f)
  | disconnect (s : State) (k : Nat) : RoundWrite S s (setConnected s (s.busConnected.filter (· ≠ k)))
  | publish (s : State) {k : Nat} {f : Frame} (hf : headFrame s k = some f) : RoundWrite S s (setOnBus s (some f))
  | clear (s : State) : RoundWrite S s (setOnBus s none)
  | phase (s : State) (p : Phase) : RoundWrite S s (setPhase s p)
  | ackSeen (s : State) (b : Bool) : RoundWrite S s (setAckSeen s b)

abbrev ArbWrites (S : Set Nat) : State → State → Prop := ReflTransGen (ArbWrite S)

abbrev RoundWrites (S : Set Nat) : State → State → Prop := ReflTransGen (RoundWrite S)

/-- A node record after any number of writes. -/
abbrev Evolves : Node → Node → Prop := ReflTransGen NodeWrite

/-! ## The parts of an arbitration -/

section Arbitration

variable {S : Set Nat} {s t u : State} {k : Nat}

theorem ArbWrites.rounds (h : ArbWrites S s t) : RoundWrites S s t :=
  ReflTransGen.mono (fun _ _ => .arb) _ _ h

/-- A loop makes the writes of its steps. -/
theorem reflTransGen_forSlots {r : State → State → Prop} {f : State → Nat → State} {ks : List Nat}
    (h : ∀ k ∈ ks, ∀ u, ReflTransGen r u (f u k)) (s : State) : ReflTransGen r s (forSlots f ks s) := by
  induction ks generalizing s with
  | nil => exact .refl
  | cons k ks ih =>
    obtain ⟨hk, hks⟩ := List.forall_mem_cons.mp h
    exact (hk s).trans (ih hks _)

theorem arbWrites_emitNode (mk : Node → EventKind) : ArbWrites S s (emitNode s k mk) := by
  unfold emitNode
  split
  · exact .single (.emit s _)
  · exact .refl

theorem arbWrites_enterStatus (st : Status) (hk : k ∈ S) : ArbWrites S s (enterStatus st s k) :=
  (ReflTransGen.single (.status s st hk)).trans (arbWrites_emitNode _)

theorem arbWrites_enterEligible (hS : ∀ k ∈ s.busConnected, k ∈ S) : ArbWrites S s (enterEligible s) := by
  have hloop : ArbWrites S s (forSlots (enterStatus .arbitrating) (s.busConnected.filter (eligible s)) s) :=
    reflTransGen_forSlots (fun k hk _ => arbWrites_enterStatus _ (hS k (List.mem_of_mem_filter hk))) s
  refine hloop.trans ?_
  unfold enterEligible announceStart
  split
  · exact .refl
  · exact .single (.emit _ _)

theorem arbWrites_compareIndex {a : List Nat} (ha : ∀ k ∈ a, k ∈ S) (i : Nat) (ld : Option Nat) :
    ArbWrites S s (compareIndex i a ld s).1 := by
  have hreport : ArbWrites S s (reportBits i a s) := reflTransGen_forSlots (fun _ _ _ => arbWrites_emitNode _) s
  unfold compareIndex eliminate
  split
  · exact hreport
  · exact hreport.trans
      (reflTransGen_forSlots (fun k hk _ => arbWrites_enterStatus _ (ha k (List.mem_of_mem_filter hk))) _)

theorem arbWrites_arbLoop {is : List Nat} (his : ∀ i ∈ is, i ≤ 11) (ld : Option Nat)
    (hS : ∀ k ∈ s.busConnected, k ∈ S) : ArbWrites S s (arbLoop is ld s).st := by
  induction is generalizing ld s with
  | nil => exact .single (.bitIndex s le_rfl)
  | cons i is ih =>
    obtain ⟨hi, his⟩ := List.forall_mem_cons.mp his
    have hbit : ArbWrites S s (setBitIndex s i) := .single (.bitIndex s hi)
    unfold arbLoop
    split
    · exact hbit.tail (.winner _ _ (.inl hi))
    · exact hbit.trans (ih his ld hS)
    · have ha : ∀ k ∈ contenders s, k ∈ S := fun k hk => hS k (List.mem_of_mem_filter hk)
      exact (hbit.trans (arbWrites_compareIndex ha i ld)).trans (ih his _ (by simpa using hS))

theorem arbWrites_exhaust {ld : Option Nat} (h : exhaust ld s = .next t) : ArbWrites S s t := by
  unfold exhaust at h
  split at h
  · cases h
    exact .single (.winner s _ (.inr rfl))
  · cases h
    exact .single (.winner s _ (.inl le_rfl))
  · split at h
    · cases h
    · cases h
      exact .single (.winner s _ (.inl le_rfl))

theorem arbWrites_announceWinner : ArbWrites S s (announceWinner s) := by
  unfold announceWinner
  split
  · exact arbWrites_emitNode _
  · exact .refl

/-- An arbitration writes the statuses of connected nodes only (R190, R193). -/
theorem arbWrites_arbitrate (h : arbitrate s = .next t) : ArbWrites {k | k ∈ s.busConnected} s t := by
  obtain ⟨u, hu, ht⟩ := andThen_eq_next_iff.mp h
  cases ht
  refine ReflTransGen.trans ?_ arbWrites_announceWinner
  have hstart : ArbWrites {k | k ∈ s.busConnected} s (enterEligible (setWinner s none 0)) :=
    (ReflTransGen.single (.winner s none (.inl (Nat.zero_le 11)))).trans (arbWrites_enterEligible fun _ hk => hk)
  have hloop := hstart.trans
    (arbWrites_arbLoop (is := List.range 11) (fun i hi => (List.mem_range.mp hi).le) none
      (by simp only [enterEligible_connected]; exact fun k hk => hk))
  split at hu
  · cases hu
    exact hloop
  · exact hloop.trans (arbWrites_exhaust hu)

end Arbitration

/-! ## The parts of a round -/

section Round

variable {S : Set Nat} {s t u : State} {k w : Nat}

theorem roundWrites_emitNode (mk : Node → EventKind) : RoundWrites S s (emitNode s k mk) :=
  (arbWrites_emitNode mk).rounds

theorem roundWrites_enterStatus (st : Status) (hk : k ∈ S) : RoundWrites S s (enterStatus st s k) :=
  (arbWrites_enterStatus st hk).rounds

theorem roundWrites_receive {f : Frame} (hk : k ∈ S) : RoundWrites S s (receive f k s).1 := by
  unfold receive
  split
  · exact .refl
  · exact .single (.node s hk fun _ => .receiveError)

theorem roundWrites_ackSuccess (hk : k ∈ S) : RoundWrites S s (ackSuccess k s) :=
  .single (.node s hk fun _ => .pop)

theorem roundWrites_ackFailure (hk : k ∈ S) : RoundWrites S s (ackFailure k s) :=
  .single (.node s hk fun _ => .failure)

theorem roundWrites_evict (hk : k ∈ S) : RoundWrites S s (evict k s) :=
  ((ReflTransGen.single (.node s hk fun _ => .status .evicted)).tail (.disconnect _ k)).trans (roundWrites_emitNode _)

theorem roundWrites_transmit (h : transmit k s = .next t) : RoundWrites S s t := by
  obtain ⟨n, f, hn, -, hf, rfl⟩ := transmit_eq_next_iff.mp h
  exact .single (.publish s (Option.bind_eq_some_iff.mpr ⟨n, hn, hf⟩))

theorem roundWrites_emitFields : RoundWrites S s (emitFields w s) := by
  have hloop (l : List (FieldName × Bits)) (s : State) :
      RoundWrites S s (l.foldl (fun s p => emitNode s w fun n => .frameFieldSent n.id p.1 p.2) s) := by
    induction l generalizing s with
    | nil => exact .refl
    | cons p l ih => exact (roundWrites_emitNode _).trans (ih _)
  unfold emitFields
  split
  · exact hloop _ s
  · exact .refl

theorem roundWrites_transmission {ls : List Nat} (hls : ∀ k ∈ ls, k ∈ S) (h : transmission w ls s = .next t) :
    RoundWrites S s t := by
  obtain ⟨u, hu, ht⟩ := andThen_eq_next_iff.mp h
  cases ht
  exact ((reflTransGen_forSlots (fun k hk _ => roundWrites_enterStatus _ (hls k hk)) s).trans
    (roundWrites_transmit hu)).trans roundWrites_emitFields

theorem roundWrites_receiveStep (hk : k ∈ S) : RoundWrites S s (receiveStep s k) := by
  unfold receiveStep
  split
  · exact (roundWrites_receive hk).tail (.ackSeen _ _)
  · exact .refl

theorem roundWrites_acknowledgment {ls : List Nat} (hls : ∀ k ∈ ls, k ∈ S) :
    RoundWrites S s (acknowledgment w ls s) :=
  (((ReflTransGen.single (.phase s _)).tail (.ackSeen _ _)).trans
    (reflTransGen_forSlots (fun k hk _ => roundWrites_receiveStep (hls k hk)) _)).trans (roundWrites_emitNode _)

theorem roundWrites_outcome (hw : w ∈ S) : RoundWrites S s (outcome w s) := by
  have hphase : RoundWrites S s (setPhase s .outcome) := .single (.phase s _)
  unfold outcome
  split
  · exact hphase.trans (roundWrites_ackSuccess hw)
  · exact (hphase.trans (roundWrites_ackFailure hw)).trans (roundWrites_emitNode _)

theorem roundWrites_evictionCheck (hw : w ∈ S) : RoundWrites S s (evictionCheck w s) := by
  have hphase : RoundWrites S s (setPhase s .evictionCheck) := .single (.phase s _)
  unfold evictionCheck
  split
  · exact hphase.trans (roundWrites_evict hw)
  · exact hphase

theorem roundWrites_idleStep (hk : k ∈ S) : RoundWrites S s (idleStep s k) := by
  unfold idleStep
  split
  · exact .refl
  · exact roundWrites_enterStatus _ hk

theorem roundWrites_roundReset (hS : ∀ k ∈ s.busConnected, k ∈ S) : RoundWrites S s (roundReset s) :=
  ((((ReflTransGen.single (.phase s .roundReset)).trans
    (reflTransGen_forSlots (fun k hk _ => roundWrites_idleStep (hS k hk)) _)).tail (.clear _)).tail
      (.arb (.emit _ _))).tail (.phase _ _)

theorem activeListeners_subset : activeListeners s w ⊆ s.busConnected := by
  unfold activeListeners
  split
  · exact List.filter_subset_self _
  · exact List.nil_subset _

/-- Steps 4 to 7 write the records of the winner and of connected nodes only (R213 to R222). -/
theorem roundWrites_deliver (hS : ∀ k ∈ s.busConnected, k ∈ S) (hw : w ∈ S) (h : deliver w s = .next t) :
    RoundWrites S s t := by
  obtain ⟨u, hu, ht⟩ := andThen_eq_next_iff.mp h
  cases ht
  have hls : ∀ k ∈ activeListeners (enterStatus .sending (setPhase s .transmission) w) w, k ∈ S :=
    fun k hk => hS k (by simpa using activeListeners_subset hk)
  exact (((((ReflTransGen.single (.phase s .transmission)).trans (roundWrites_enterStatus _ hw)).trans
    (roundWrites_transmission hls hu)).trans (roundWrites_acknowledgment hls)).trans (roundWrites_outcome hw)).trans
      (roundWrites_evictionCheck hw)

theorem leftAt_announceWinner {v i : Nat} (h : LeftAt s v i t) : LeftAt s v i (announceWinner t) := by
  refine h.of_eq restOf_announceWinner ?_ fun k => ?_
  · unfold announceWinner
    split <;> simp
  · unfold announceWinner
    split <;> simp

/-- How arbitration on a quiet bus ends: with some of the eligible nodes left, and one of them the winner if there is
one (R195). -/
theorem arbitrate_eq_next (hquiet : busQuiet s = true) (h : arbitrate s = .next t) :
    (∃ v i, LeftAt s v i t) ∧ ∀ w, t.seqWinner = some w → w ∈ eligibleSlots s := by
  by_cases hnobody : eligibleSlots s = []
  · rw [arbitrate_eq_of_nobody hquiet hnobody] at h
    cases h
    exact ⟨⟨0, 0, rfl, rfl, fun k => by simp [hnobody]⟩, nofun⟩
  · obtain ⟨v, hv⟩ := exists_hasSmallest hnobody
    by_cases halone : tiedWith s v = [v]
    · obtain ⟨u, j, -, hleft, -, hnext⟩ := arbitrate_of_alone hquiet hv halone
      rw [hnext] at h
      cases h
      refine ⟨⟨v, j, leftAt_announceWinner (hleft.of_eq rfl rfl fun _ => rfl)⟩, fun w hw => ?_⟩
      obtain rfl : v = w := by simpa using hw
      exact hv.1
    · obtain ⟨hrefuse, hlast⟩ := arbitrate_of_tied hquiet hv halone
      cases hpolicy : s.cfgDupIdPolicy with
      | refuse => simp [hrefuse hpolicy] at h
      | lastDominant =>
        obtain ⟨u, hleft, hnext⟩ := hlast hpolicy
        rw [hnext] at h
        cases h
        refine ⟨⟨v, 11, leftAt_announceWinner (hleft.of_eq rfl rfl fun _ => rfl)⟩, fun w hw => ?_⟩
        exact mem_eligibleSlots_of_lastDomAt (w := v) (i := 11) (by simpa using hw)

/-- A round writes the records of connected nodes only (R210). -/
theorem roundWrites_round (h : round s = .next t) : RoundWrites {k | k ∈ s.busConnected} s t := by
  obtain ⟨-, hquiet, -, hbody⟩ := round_eq_next_iff.mp h
  obtain ⟨u, hu, ht⟩ := andThen_eq_next_iff.mp hbody
  have hconnected : u.busConnected = s.busConnected := (arbitrate_keeps hu).2
  have harb : RoundWrites {k | k ∈ s.busConnected} s u :=
    ((ReflTransGen.single (.phase s .eligibility)).tail (.phase _ .arbitration)).trans (arbWrites_arbitrate hu).rounds
  have hS : ∀ k ∈ u.busConnected, k ∈ {k | k ∈ s.busConnected} := fun k hk => hconnected ▸ hk
  split at ht
  next w hw =>
    obtain ⟨v, hv, ht⟩ := andThen_eq_next_iff.mp ht
    cases ht
    have helig : w ∈ eligibleSlots (atArbitration s) := (arbitrate_eq_next (s := atArbitration s) hquiet hu).2 w hw
    have hdeliver := roundWrites_deliver hS (mem_eligibleSlots_iff.mp helig).1 hv
    exact (harb.trans hdeliver).trans
      (roundWrites_roundReset fun k hk => hS k ((deliver_keeps_slots hv).2.subset hk))
  next =>
    cases ht
    exact harb.trans (roundWrites_roundReset hS)

end Round

end Sys2Proof.Machine
end

section
/-!
What every operation keeps (10_state.md sections 3 to 5, 20_memory.md section 4): no node is lost and its record only
evolves, the event stream only grows, a slot that is not connected stays as it is, and the shared registers have their
owners. Each is a check of the kinds of writes; SETUP is read off its closed form.
-/

namespace Sys2Proof.Machine

open Relation

/-! ## What the writes to a node record keep -/

section Evolves

variable {n m : Node}

/-- A frame as a queue holds it: the CRC is what a repair writes. -/
def sentFields (f : Frame) : Nat × BitVec Config.idBits × List Byte := (f.time, f.priority, f.data)

theorem sentFields_repairFrame (f : Frame) : sentFields (repairFrame f) = sentFields f := rfl

theorem undelivered_failure (n : Node) :
    (undelivered { n with transmitErrors := n.transmitErrors + 1, next := n.next.map repairFrame }).map sentFields =
      (undelivered n).map sentFields := by
  cases h : n.next <;> simp [undelivered, h, sentFields_repairFrame]

theorem Evolves.id_eq (h : Evolves n m) : m.id = n.id := by
  induction h with
  | refl => rfl
  | tail _ hw ih => cases hw <;> simpa using ih

theorem Evolves.listeners_eq (h : Evolves n m) : m.listeners = n.listeners := by
  induction h with
  | refl => rfl
  | tail _ hw ih => cases hw <;> simpa using ih

theorem Evolves.transmitErrors_le (h : Evolves n m) : n.transmitErrors ≤ m.transmitErrors := by
  induction h with
  | refl => exact le_rfl
  | tail _ hw ih => cases hw <;> simp <;> omega

theorem Evolves.receiveErrors_le (h : Evolves n m) : n.receiveErrors ≤ m.receiveErrors := by
  induction h with
  | refl => exact le_rfl
  | tail _ hw ih => cases hw <;> simp <;> omega

theorem Evolves.undelivered_suffix (h : Evolves n m) :
    (undelivered m).map sentFields <:+ (undelivered n).map sentFields := by
  induction h with
  | refl => exact List.suffix_rfl
  | tail _ hw ih =>
    cases hw with
    | status | receiveError => exact ih
    | pop =>
      rw [undelivered_popNext]
      exact ((List.suffix_append _ _).map sentFields).trans ih
    | failure =>
      rw [undelivered_failure]
      exact ih

end Evolves

/-! ## What the writes to the state keep -/

section Writes

variable {S : Set Nat} {s t u : State} {k : Nat} {n m : Node}

/-- What an arbitration does not write: who is connected, the frame on the bus, the phase and `seq.ackSeen`. -/
theorem ArbWrites.bus_eq (h : ArbWrites S s t) :
    t.busConnected = s.busConnected ∧ t.busOnBus = s.busOnBus ∧ t.seqPhase = s.seqPhase ∧
      t.seqAckSeen = s.seqAckSeen := by
  induction h with
  | refl => exact ⟨rfl, rfl, rfl, rfl⟩
  | tail _ hw ih => cases hw <;> simpa using ih

theorem RoundWrites.restOf_eq (h : RoundWrites S s t) : restOf t = restOf s := by
  induction h with
  | refl => rfl
  | tail _ hw ih =>
    cases hw with
    | arb h => cases h <;> simpa using ih
    | node | disconnect | publish | clear | phase | ackSeen => simpa using ih

theorem RoundWrites.connected_sublist (h : RoundWrites S s t) : t.busConnected.Sublist s.busConnected := by
  induction h with
  | refl => exact List.Sublist.refl _
  | tail _ hw ih =>
    cases hw with
    | arb h => cases h <;> simpa using ih
    | disconnect k => exact List.filter_sublist.trans ih
    | node | publish | clear | phase | ackSeen => simpa using ih

/-- The indices stay in their ranges (R44). -/
theorem RoundWrites.indices_le (h : RoundWrites S s t) (hs : s.seqBitIndex ≤ 11 ∧ s.seqWonAt ≤ 11) :
    t.seqBitIndex ≤ 11 ∧ t.seqWonAt ≤ 11 := by
  induction h with
  | refl => exact hs
  | tail _ hw ih =>
    obtain ⟨hbit, hwon⟩ := ih
    cases hw with
    | arb h =>
      cases h with
      | bitIndex hi => exact ⟨hi, hwon⟩
      | winner o hi => exact ⟨hbit, hi.elim id fun h => h ▸ hwon⟩
      | emit | status => simpa using ⟨hbit, hwon⟩
    | node | disconnect | publish | clear | phase | ackSeen => simpa using ⟨hbit, hwon⟩

/-- Events are appended at the tick of the bus (R100). -/
theorem RoundWrites.events_grow (h : RoundWrites S s t) :
    ∃ new : List Event, t.events = s.events ++ new ∧ ∀ e ∈ new, e.tick = s.busTick := by
  induction h with
  | refl => exact ⟨[], by simp, nofun⟩
  | tail hws hw ih =>
    rename_i u v
    have htick : u.busTick = s.busTick := congrArg Rest.busTick (RoundWrites.restOf_eq hws)
    have unchanged (h : v.events = u.events) :
        ∃ new : List Event, v.events = s.events ++ new ∧ ∀ e ∈ new, e.tick = s.busTick := h ▸ ih
    cases hw with
    | arb h =>
      cases h with
      | emit e =>
        obtain ⟨new, hnew, hticks⟩ := ih
        refine ⟨new ++ [⟨u.busTick, e⟩], by simp [hnew], fun e he => ?_⟩
        rcases List.mem_append.mp he with he | he
        · exact hticks e he
        · obtain rfl := List.mem_singleton.mp he
          exact htick
      | status | bitIndex | winner => exact unchanged (by simp)
    | node | disconnect | publish | clear | phase | ackSeen => exact unchanged (by simp)

/-- A slot outside S is not written. -/
theorem RoundWrites.nodeAt_eq (h : RoundWrites S s t) (hk : k ∉ S) : nodeAt t k = nodeAt s k := by
  have updated {u : State} {j : Nat} {f : Node → Node} (hj : j ∈ S) : nodeAt (updateNode u j f) k = nodeAt u k :=
    nodeAt_updateNode_ne f fun h => hk (h ▸ hj)
  induction h with
  | refl => rfl
  | tail _ hw ih =>
    cases hw with
    | arb h =>
      cases h with
      | status st hj => exact (updated hj).trans ih
      | emit | bitIndex | winner => exact ih
    | node hj hf => exact (updated hj).trans ih
    | disconnect | publish | clear | phase | ackSeen => exact ih

/-- A slot holds a node after the writes exactly if it did before, and its record has evolved. -/
def NodesEvolve (s t : State) : Prop := ∀ k, Option.Rel Evolves (nodeAt s k) (nodeAt t k)

theorem evolves_map {a b : Option Node} {f : Node → Node} (h : Option.Rel Evolves a b) (hf : ∀ n, NodeWrite n (f n)) :
    Option.Rel Evolves a (b.map f) := by
  cases h with
  | none => exact .none
  | some h => exact .some (h.tail (hf _))

theorem RoundWrites.nodesEvolve (h : RoundWrites S s t) : NodesEvolve s t := by
  intro k
  have updated {u : State} {j : Nat} {f : Node → Node} (h : Option.Rel Evolves (nodeAt s k) (nodeAt u k))
      (hf : ∀ n, NodeWrite n (f n)) : Option.Rel Evolves (nodeAt s k) (nodeAt (updateNode u j f) k) := by
    rw [nodeAt_updateNode]
    split
    next hj => exact evolves_map (hj ▸ h) hf
    next => exact h
  induction h with
  | refl =>
    cases nodeAt s k with
    | none => exact .none
    | some n => exact .some .refl
  | tail _ hw ih =>
    cases hw with
    | arb h =>
      cases h with
      | status st hj => exact updated ih fun _ => .status st
      | emit | bitIndex | winner => exact ih
    | node hj hf => exact updated ih hf
    | disconnect | publish | clear | phase | ackSeen => exact ih

theorem NodesEvolve.node (h : NodesEvolve s t) (hn : nodeAt s k = some n) : ∃ m, nodeAt t k = some m ∧ Evolves n m := by
  have hk := h k
  rw [hn] at hk
  generalize nodeAt t k = o at hk
  cases hk with
  | some h => exact ⟨_, rfl, h⟩

theorem NodesEvolve.older (h : NodesEvolve s t) (hm : nodeAt t k = some m) :
    ∃ n, nodeAt s k = some n ∧ Evolves n m := by
  have hk := h k
  rw [hm] at hk
  generalize nodeAt s k = o at hk
  cases hk with
  | some h => exact ⟨_, rfl, h⟩

end Writes

/-! ## The commands on a node and ROUND -/

section Commands

variable {s t : State} {i : Instr} {k : Nat} {n : Node}

/-- What a node-level command or ROUND does (R160, R298): NODE_INIT fills an empty slot; the status transitions and
ARBITRATE make the writes of an arbitration, as does RECEIVE of a valid frame, which writes nothing; the acknowledgments
and RECEIVE of an invalid frame make one write to a node record; TRANSMIT, EVICT and ROUND reach the bus. -/
theorem exec_eq_next_of_nodeLevel (hlevel : nodeLevel i = true) (h : exec i s = .next t) :
    (∃ k id listeners frames, i = .nodeInit k id listeners frames) ∨
      (∃ S u r, ArbWrites S s u ∧ t = setResult u r) ∨
      (∃ k f r, (∀ n, NodeWrite n (f n)) ∧ t = setResult (updateNode s k f) r) ∨
      (∃ k f, i = .transmit k ∧ headFrame s k = some f ∧ t = setResult (setOnBus s (some f)) .none) ∨
      (∃ k, i = .evict k ∧ t = setResult (evict k s) .none) ∨
      (i = .round ∧ ∃ u, round s = .next u ∧ t = setResult u .none) := by
  have of_entered {st : Status} {k : Nat}
      (h : (withNode s k fun n => .next (setResult (enterStatus st s k) (.description n.id st))) = .next t) :
      ∃ S u r, ArbWrites S s u ∧ t = setResult u r := by
    obtain ⟨n, -, ht⟩ := withNode_eq_next_iff.mp h
    cases ht
    exact ⟨{k}, _, _, arbWrites_enterStatus st rfl, rfl⟩
  cases i with
  | nodeInit k id listeners frames => exact .inl ⟨k, id, listeners, frames, rfl⟩
  | enterArbitration | enterIdle | enterSending | enterReceiving => exact .inr (.inl (of_entered h))
  | arbitrate =>
    rw [exec, execArbitrate] at h
    split_ifs at h
    obtain ⟨u, hu, ht⟩ := andThen_eq_next_iff.mp h
    cases ht
    exact .inr (.inl ⟨_, u, _, arbWrites_arbitrate hu, rfl⟩)
  | receive k =>
    obtain ⟨n, -, ht⟩ := withNode_eq_next_iff.mp h
    split at ht
    · cases ht
      unfold receive
      split
      · exact .inr (.inl ⟨∅, s, _, .refl, rfl⟩)
      · exact .inr (.inr (.inl ⟨k, _, _, fun _ => .receiveError, rfl⟩))
    · cases ht
  | ackSuccess k =>
    obtain ⟨n, -, ht⟩ := withNode_eq_next_iff.mp h
    split_ifs at ht
    cases ht
    exact .inr (.inr (.inl ⟨k, _, _, fun _ => .pop, rfl⟩))
  | ackFailure k =>
    obtain ⟨n, -, ht⟩ := withNode_eq_next_iff.mp h
    split_ifs at ht
    cases ht
    exact .inr (.inr (.inl ⟨k, _, _, fun _ => .failure, rfl⟩))
  | transmit k =>
    obtain ⟨u, hu, ht⟩ := andThen_eq_next_iff.mp h
    obtain ⟨n, f, hn, -, hf, rfl⟩ := transmit_eq_next_iff.mp hu
    cases ht
    exact .inr (.inr (.inr (.inl ⟨k, f, rfl, Option.bind_eq_some_iff.mpr ⟨n, hn, hf⟩, rfl⟩)))
  | evict k =>
    obtain ⟨n, -, ht⟩ := withNode_eq_next_iff.mp h
    cases ht
    exact .inr (.inr (.inr (.inr (.inl ⟨k, rfl, rfl⟩))))
  | round => exact .inr (.inr (.inr (.inr (.inr ⟨rfl, exec_round_eq_next_iff.mp h⟩))))
  | _ => cases hlevel

/-- NODE_INIT aside, the node-level commands and ROUND are the writes of a round. -/
theorem roundWrites_of_nodeLevel (hlevel : nodeLevel i = true) (h : exec i s = .next t) :
    (∃ k id listeners frames, i = .nodeInit k id listeners frames) ∨
      ∃ S u r, RoundWrites S s u ∧ t = setResult u r := by
  obtain hinit | ⟨S, u, r, hu, rfl⟩ | ⟨k, f, r, hf, rfl⟩ | ⟨k, f, -, hf, rfl⟩ | ⟨k, -, rfl⟩ | ⟨-, u, hu, rfl⟩ :=
    exec_eq_next_of_nodeLevel hlevel h
  · exact .inl hinit
  · exact .inr ⟨S, u, r, hu.rounds, rfl⟩
  · exact .inr ⟨{k}, _, r, .single (.node s rfl hf), rfl⟩
  · exact .inr ⟨∅, _, _, .single (.publish s hf), rfl⟩
  · exact .inr ⟨{k}, _, _, roundWrites_evict rfl, rfl⟩
  · exact .inr ⟨_, u, _, roundWrites_round hu, rfl⟩

theorem exec_nodeInit_eq_next_iff {id : Nat} {listeners : List Nat} {frames : List Frame} :
    exec (.nodeInit k id listeners frames) s = .next t ↔
      k < s.nodes.length ∧ nodeAt s k = none ∧ id ∉ listeners ∧
        t = setResult (putNode s k (freshNode id listeners frames)) .none := by
  rw [exec, execNodeInit, andThen_eq_next_iff]
  constructor
  · rintro ⟨u, hu, ht⟩
    obtain ⟨hslot, hfree, hself, rfl⟩ := nodeInit_eq_next_iff.mp hu
    cases ht
    exact ⟨hslot, hfree, hself, rfl⟩
  · rintro ⟨hslot, hfree, hself, rfl⟩
    exact ⟨_, nodeInit_eq_next_iff.mpr ⟨hslot, hfree, hself, rfl⟩, rfl⟩

/-- STEP is a round at the driver's tick (R243). -/
theorem exec_step_eq_next_iff :
    exec .step s = .next t ↔
      ∃ u, round (setBusTick s s.drvTick) = .next u ∧ t = setResult (setDrvTick u (u.drvTick + 1)) .none := by
  rw [exec, execStep, andThen_eq_next_iff]
  constructor
  · rintro ⟨v, hv, ht⟩
    obtain ⟨u, hu, rfl⟩ := driverStep_eq_next_iff.mp hv
    cases ht
    exact ⟨u, hu, rfl⟩
  · rintro ⟨u, hu, rfl⟩
    exact ⟨_, driverStep_eq_next_iff.mpr ⟨u, hu, rfl⟩, rfl⟩

/-- RUN returns with no more than its flag and the result written, or takes one STEP (R244). -/
theorem exec_run_eq_next (h : exec .run s = .next t) :
    (s.drvSetupDone = true ∧ t = setRunning (setResult s .none) false) ∨
      ∃ u, exec .step s = .next u ∧ t = setRunning u true := by
  obtain ⟨hsetup, ⟨-, rfl⟩ | ⟨-, u, hu, rfl⟩⟩ := execRun_eq_next_iff.mp h
  · exact .inl ⟨hsetup, rfl⟩
  · exact .inr ⟨setResult u .none, andThen_eq_next_iff.mpr ⟨u, hu, rfl⟩, rfl⟩

end Commands

/-! ## SETUP -/

section Setup

variable {s t : State} {j k : Nat} {n : Node} {specs : List NodeSpec}

/-- The loop of SETUP answers next exactly on free slots and node specs that are not their own listeners (R241). -/
theorem setupNodes_eq_next (h : setupNodes j specs s = .next t) (hj : j ≤ s.nodes.length) :
    FreeSlots s j specs.length ∧ (∀ n ∈ specs, n.id ∉ n.listeners) ∧ t = placeSpecs j specs s := by
  induction specs generalizing j s with
  | nil =>
    cases h
    exact ⟨⟨hj, fun i _ _ => by simp at *; omega⟩, nofun, by simp [placeSpecs]⟩
  | cons n rest ih =>
    obtain ⟨u, hu, ht⟩ := andThen_eq_next_iff.mp h
    obtain ⟨hslot, hfree, hself, rfl⟩ := nodeInit_eq_next_iff.mp hu
    have hfresh : freshNode n.id n.listeners n.frames = specNode n := popNext_eq _
    rw [hfresh] at ht
    obtain ⟨⟨hexist, hempty⟩, hrest, rfl⟩ := ih (s := placeSpec j n s) ht (by simpa [placeSpec] using hslot)
    refine ⟨⟨?_, fun i hi hlt => ?_⟩, List.forall_mem_cons.mpr ⟨hself, hrest⟩, placeSpecs_placeSpec hslot⟩
    · rw [List.length_cons]
      simp [placeSpec] at hexist
      omega
    · by_cases hij : i = j
      · exact hij ▸ hfree
      · exact (nodeAt_putNode_ne hij).symm.trans (hempty i (by omega) (by simp at hlt; omega))

theorem nodeAt_placeSpecs :
    nodeAt (placeSpecs 0 specs s) k = if h : k < specs.length then some (specNode specs[k]) else nodeAt s k := by
  unfold nodeAt placeSpecs
  split
  next h => simp [List.getElem?_append, h]
  next h => simp [List.getElem?_append, h, Nat.add_sub_cancel' (Nat.le_of_not_lt h)]

/-- SETUP in closed form (R241). -/
theorem exec_setup_eq_next {limit : Nat} {policy : DupIdPolicy} (h : exec (.setup limit policy specs) s = .next t) :
    s.drvSetupDone = false ∧ 1 ≤ limit ∧ (specs.map NodeSpec.id).Nodup ∧ FreeSlots s 0 specs.length ∧
      (∀ n ∈ specs, n.id ∉ n.listeners) ∧
      t = { placeSpecs 0 specs s with
            cfgErrorLimit := limit, cfgDupIdPolicy := policy, result := .none, drvSetupDone := true } := by
  rw [exec, execSetup] at h
  split_ifs at h with hdone htwice hmany hlimit
  obtain ⟨u, hu, ht⟩ := andThen_eq_next_iff.mp h
  obtain ⟨⟨hexist, hempty⟩, hself, rfl⟩ := setupNodes_eq_next hu (Nat.zero_le _)
  cases ht
  exact ⟨by simpa using hdone, Nat.one_le_iff_ne_zero.mpr hlimit, by simpa [distinctIds_iff] using htwice,
    ⟨hexist, hempty⟩, hself, rfl⟩

/-- SETUP leaves alone every slot that holds a node (R241). -/
theorem nodeAt_of_exec_setup {limit : Nat} {policy : DupIdPolicy} (h : exec (.setup limit policy specs) s = .next t)
    (hn : nodeAt s k = some n) : specs.length ≤ k ∧ nodeAt t k = some n := by
  obtain ⟨-, -, -, ⟨hexist, hempty⟩, -, rfl⟩ := exec_setup_eq_next h
  have hk : ¬ k < specs.length := fun hk => by simp [hempty k (Nat.zero_le k) (by omega)] at hn
  exact ⟨Nat.le_of_not_lt hk, nodeAt_placeSpecs.trans ((dif_neg hk).trans hn)⟩

end Setup

/-! ## What any operation but RESET does -/

section Operations

variable {s t : State} {i : Instr} {k : Nat} {n : Node}

/-- NODE_INIT and SETUP fill empty slots; every other operation but RESET makes the writes of a round, for STEP and RUN
at another tick, or leaves the nodes and the bus alone. -/
theorem exec_eq_next_of_ne_reset (hreset : i ≠ .reset) (h : exec i s = .next t) :
    (∃ k id listeners frames, i = .nodeInit k id listeners frames) ∨
      (∃ limit policy specs, i = .setup limit policy specs) ∨
      (∃ S b u r d x, RoundWrites S (setBusTick s b) u ∧
        t = { u with result := r, drvTick := d, drvRunning := x }) ∨
      ∃ r p q x, t = { s with result := r, drvPauseReq := p, drvStopReq := q, drvRunning := x } := by
  cases hlevel : nodeLevel i with
  | true =>
    obtain hinit | ⟨S, u, r, hu, rfl⟩ := roundWrites_of_nodeLevel hlevel h
    · exact .inl hinit
    · exact .inr (.inr (.inl ⟨S, s.busTick, u, r, u.drvTick, u.drvRunning, hu, rfl⟩))
  | false =>
    obtain (rfl | rfl | rfl) | hsetup | ⟨r, p, q, rfl⟩ := exec_eq_next_of_not_nodeLevel hlevel h
    · exact absurd rfl hreset
    · obtain ⟨u, hu, rfl⟩ := exec_step_eq_next_iff.mp h
      exact .inr (.inr (.inl ⟨_, _, u, _, _, u.drvRunning, roundWrites_round hu, rfl⟩))
    · obtain ⟨-, rfl⟩ | ⟨v, hv, rfl⟩ := exec_run_eq_next h
      · exact .inr (.inr (.inr ⟨_, s.drvPauseReq, s.drvStopReq, _, rfl⟩))
      · obtain ⟨u, hu, rfl⟩ := exec_step_eq_next_iff.mp hv
        exact .inr (.inr (.inl ⟨_, _, u, _, _, _, roundWrites_round hu, rfl⟩))
    · exact .inr (.inl hsetup)
    · exact .inr (.inr (.inr ⟨r, p, q, s.drvRunning, rfl⟩))

/-- Every operation but RESET keeps every node, and its record evolves. -/
theorem node_of_exec (hreset : i ≠ .reset) (h : exec i s = .next t) (hn : nodeAt s k = some n) :
    ∃ m, nodeAt t k = some m ∧ Evolves n m := by
  obtain ⟨j, id, listeners, frames, rfl⟩ | ⟨limit, policy, specs, rfl⟩ | ⟨S, b, u, r, d, x, hu, rfl⟩ |
    ⟨r, p, q, x, rfl⟩ := exec_eq_next_of_ne_reset hreset h
  · obtain ⟨-, hfree, -, rfl⟩ := exec_nodeInit_eq_next_iff.mp h
    have hk : k ≠ j := fun hk => by simp [← hk, hn] at hfree
    exact ⟨n, (nodeAt_putNode_ne hk).trans hn, .refl⟩
  · exact ⟨n, (nodeAt_of_exec_setup h hn).2, .refl⟩
  · exact hu.nodesEvolve.node hn
  · exact ⟨n, hn, .refl⟩

end Operations

/-! ## Slots that are not connected, and the event stream -/

section Frames

variable {s t : State} {i : Instr} {k : Nat} {n : Node}

/-- Slot k is not connected and holds the record n. -/
def Frozen (k : Nat) (n : Node) (s : State) : Prop := nodeAt s k = some n ∧ k ∉ s.busConnected

theorem Frozen.of_round (h : round s = .next t) (hs : Frozen k n s) : Frozen k n t := by
  obtain ⟨hn, hk⟩ := hs
  have hwrites := roundWrites_round h
  exact ⟨(hwrites.nodeAt_eq hk).trans hn, fun hmem => hk (hwrites.connected_sublist.subset hmem)⟩

theorem Frozen.of_step (h : exec .step s = .next t) (hs : Frozen k n s) : Frozen k n t := by
  obtain ⟨u, hu, rfl⟩ := exec_step_eq_next_iff.mp h
  exact Frozen.of_round (s := setBusTick s s.drvTick) (t := u) hu hs

/-- Events are appended at the tick the bus has afterwards. -/
def EventsGrow (s t : State) : Prop := ∃ new : List Event, t.events = s.events ++ new ∧ ∀ e ∈ new, e.tick = t.busTick

/-- Every operation but RESET only appends to the event stream (R46). -/
theorem eventsGrow_of_exec (hreset : i ≠ .reset) (h : exec i s = .next t) : EventsGrow s t := by
  have unchanged {t : State} (h : t.events = s.events) : EventsGrow s t := ⟨[], by simp [h], nofun⟩
  obtain ⟨j, id, listeners, frames, rfl⟩ | ⟨limit, policy, specs, rfl⟩ | ⟨S, b, u, r, d, x, hu, rfl⟩ |
    ⟨r, p, q, x, rfl⟩ := exec_eq_next_of_ne_reset hreset h
  · obtain ⟨-, -, -, rfl⟩ := exec_nodeInit_eq_next_iff.mp h
    exact unchanged rfl
  · obtain ⟨-, -, -, -, -, rfl⟩ := exec_setup_eq_next h
    refine ⟨specs.map fun n => ⟨s.busTick, .nodeConnected n.id⟩, rfl, fun e he => ?_⟩
    obtain ⟨x, -, rfl⟩ := List.mem_map.mp he
    rfl
  · obtain ⟨new, hnew, hticks⟩ := hu.events_grow
    have htick : u.busTick = b := congrArg Rest.busTick hu.restOf_eq
    exact ⟨new, hnew, fun e he => (hticks e he).trans htick.symm⟩
  · exact unchanged rfl

end Frames

/-! ## The owners of the shared registers (R68) -/

section Owners

variable {s t : State} {i : Instr}

/-- What SharedRegistersHaveOwners says of one operation. -/
structure Owners (i : Instr) (s t : State) : Prop where
  connected : t.busConnected ≠ s.busConnected →
    i = .reset ∨ i = .round ∨ i = .step ∨ i = .run ∨ (∃ k, i = .evict k) ∨ (∃ l p n, i = .setup l p n)
  onBus : t.busOnBus ≠ s.busOnBus → i = .reset ∨ (∃ k, i = .transmit k)
  ticks : t.busTick ≠ s.busTick ∨ t.drvTick ≠ s.drvTick → i = .reset ∨ i = .step ∨ i = .run
  config : t.cfgErrorLimit ≠ s.cfgErrorLimit ∨ t.cfgDupIdPolicy ≠ s.cfgDupIdPolicy ∨
    t.drvSetupDone ≠ s.drvSetupDone → i = .reset ∨ (∃ l p n, i = .setup l p n)
  pause : t.drvPauseReq ≠ s.drvPauseReq → i = .reset ∨ i = .pause ∨ i = .resume
  stop : t.drvStopReq ≠ s.drvStopReq → i = .reset ∨ i = .stop
  strap : t.hostDirect = s.hostDirect
  phase : t.seqPhase = s.seqPhase

/-- An operation that keeps the rest of the state has to account for the bus only. -/
theorem owners_of_restOf (hrest : restOf t = restOf s)
    (hconnected : t.busConnected = s.busConnected ∨ i = .round ∨ ∃ k, i = .evict k)
    (honBus : t.busOnBus = s.busOnBus ∨ ∃ k, i = .transmit k) (hphase : t.seqPhase = s.seqPhase) : Owners i s t := by
  simp only [restOf, Rest.mk.injEq] at hrest
  obtain ⟨-, hbusTick, hdrvTick, hpause, hstop, hsetup, -, hlimit, hpolicy, -, -, hstrap, -⟩ := hrest
  exact {
    connected := fun h => .inr ((hconnected.resolve_left h).imp_right fun h => .inr (.inr (.inl h)))
    onBus := fun h => .inr (honBus.resolve_left h)
    ticks := fun h => (h.elim (· hbusTick) (· hdrvTick)).elim
    config := fun h => (h.elim (· hlimit) (·.elim (· hpolicy) (· hsetup))).elim
    pause := fun h => absurd hpause h
    stop := fun h => absurd hstop h
    strap := hstrap
    phase := hphase }

/-- A round ends with step 8. -/
theorem exists_roundReset_of_roundBody (h : roundBody s = .next t) : ∃ v, t = roundReset v := by
  obtain ⟨u, -, ht⟩ := andThen_eq_next_iff.mp h
  split at ht
  · obtain ⟨v, -, ht⟩ := andThen_eq_next_iff.mp ht
    cases ht
    exact ⟨v, rfl⟩
  · cases ht
    exact ⟨u, rfl⟩

/-- A round leaves the bus clear and the sequencer idle, as it found them (R210, R224). -/
theorem bus_of_round (h : round s = .next t) : t.busOnBus = s.busOnBus ∧ t.seqPhase = s.seqPhase := by
  obtain ⟨-, hquiet, hphase, hbody⟩ := round_eq_next_iff.mp h
  obtain ⟨v, rfl⟩ := exists_roundReset_of_roundBody hbody
  rw [busQuiet, Bool.and_eq_true, Option.isNone_iff_eq_none] at hquiet
  exact ⟨hquiet.2.symm, hphase.symm⟩

theorem evict_bus (k : Nat) : (evict k s).busOnBus = s.busOnBus ∧ (evict k s).seqPhase = s.seqPhase := by
  simp [evict, takeError, disconnect]

theorem owners_of_nodeLevel (hlevel : nodeLevel i = true) (h : exec i s = .next t) : Owners i s t := by
  have hrest := restOf_of_nodeLevel hlevel h
  obtain ⟨k, id, listeners, frames, rfl⟩ | ⟨S, u, r, hu, rfl⟩ | ⟨k, f, r, -, rfl⟩ | ⟨k, f, rfl, -, rfl⟩ |
    ⟨k, rfl, rfl⟩ | ⟨rfl, u, hu, rfl⟩ := exec_eq_next_of_nodeLevel hlevel h
  · obtain ⟨-, -, -, rfl⟩ := exec_nodeInit_eq_next_iff.mp h
    exact owners_of_restOf hrest (.inl rfl) (.inl rfl) rfl
  · obtain ⟨hconnected, honBus, hphase, -⟩ := hu.bus_eq
    exact owners_of_restOf hrest (.inl hconnected) (.inl honBus) hphase
  · exact owners_of_restOf hrest (.inl (by simp)) (.inl (by simp)) (by simp)
  · exact owners_of_restOf hrest (.inl rfl) (.inr ⟨k, rfl⟩) rfl
  · exact owners_of_restOf hrest (.inr (.inr ⟨k, rfl⟩)) (.inl (evict_bus k).1) (evict_bus k).2
  · exact owners_of_restOf hrest (.inr (.inl rfl)) (.inl (bus_of_round hu).1) (bus_of_round hu).2

/-- A STEP changes the ticks and what a round changes, whether STEP or RUN takes it. -/
theorem owners_of_step (hi : i = .step ∨ i = .run) (h : exec .step s = .next t) : Owners i s t := by
  obtain ⟨u, hu, rfl⟩ := exec_step_eq_next_iff.mp h
  have hrest : restOf u = restOf (setBusTick s s.drvTick) := (roundWrites_round hu).restOf_eq
  obtain ⟨honBus, hphase⟩ := bus_of_round hu
  have hround := owners_of_restOf (i := .round) hrest (.inr (.inl rfl)) (.inl honBus) hphase
  exact {
    connected := fun _ => .inr (.inr (hi.elim .inl fun h => .inr (.inl h)))
    onBus := fun h => absurd honBus h
    ticks := fun _ => .inr hi
    config := fun h => by simpa using hround.config h
    pause := fun h => by simpa using hround.pause h
    stop := fun h => by simpa using hround.stop h
    strap := hround.strap
    phase := hphase }

theorem owners_of_not_nodeLevel (hlevel : nodeLevel i = false) (h : exec i s = .next t) : Owners i s t := by
  have of_result (h : ∃ r, t = setResult s r) : Owners i s t := by
    obtain ⟨r, rfl⟩ := h
    exact owners_of_restOf rfl (.inl rfl) (.inl rfl) rfl
  cases i with
  | reset =>
    obtain ⟨hphase, rfl⟩ := execReset_eq_next_iff.mp h
    exact ⟨fun _ => .inl rfl, fun _ => .inl rfl, fun _ => .inl rfl, fun _ => .inl rfl, fun _ => .inl rfl,
      fun _ => .inl rfl, rfl, hphase.symm⟩
  | setup limit policy specs =>
    obtain ⟨-, -, -, -, -, rfl⟩ := exec_setup_eq_next h
    exact ⟨by simp, fun h => absurd rfl h, by simp [placeSpecs], by simp, fun h => absurd rfl h, fun h => absurd rfl h,
      rfl, rfl⟩
  | step => exact owners_of_step (.inl rfl) h
  | run =>
    obtain ⟨-, rfl⟩ | ⟨u, hu, rfl⟩ := exec_run_eq_next h
    · exact ⟨by simp, by simp, by simp, by simp, by simp, by simp, rfl, rfl⟩
    · exact { owners_of_step (i := .run) (.inr rfl) hu with }
  | pause | resume | stop =>
    cases h
    exact ⟨by simp, by simp, by simp, by simp, by simp, by simp, rfl, rfl⟩
  | construct => exact of_result (execConstruct_eq_next h)
  | decode => exact of_result (execDecode_eq_next h)
  | crc16 | crcByte | encode | corrupt | repair | isvalid =>
    cases h
    exact of_result ⟨_, rfl⟩
  | _ => cases hlevel

end Owners

/-! ## The obligations -/

/-- Settles O50: an evolving record keeps id and listeners, and its counters do not go down. -/
theorem countersNeverDecrease : Obligations.CountersNeverDecrease := by
  intro i s t k n hreset hexec hn
  obtain ⟨m, hm, hevolves⟩ := node_of_exec hreset hexec hn
  exact ⟨m, hm, hevolves.id_eq, hevolves.listeners_eq, hevolves.transmitErrors_le, hevolves.receiveErrors_le⟩

/-- Settles O51: a write to a node record pops the head, repairs it, or leaves the queue alone. -/
theorem queuesOnlyShrinkFromTheFront : Obligations.QueuesOnlyShrinkFromTheFront := by
  intro i s t k n m hreset hexec hn hm
  obtain ⟨x, hx, hevolves⟩ := node_of_exec hreset hexec hn
  obtain rfl : x = m := Option.some.inj (hx.symm.trans hm)
  exact hevolves.undelivered_suffix

/-- Settles O52: a round writes the records of connected nodes only, and SETUP those of empty slots. -/
theorem disconnectedNodeIsFrozen : Obligations.DisconnectedNodeIsFrozen := by
  intro i s t k n hreset hkind hexec hn hk
  have hs : Frozen k n s := ⟨hn, hk⟩
  obtain hlevel | rfl := hkind
  · obtain (rfl | rfl | rfl) | ⟨limit, policy, specs, rfl⟩ | ⟨r, p, q, rfl⟩ :=
      exec_eq_next_of_not_nodeLevel hlevel hexec
    · exact absurd rfl hreset
    · exact hs.of_step hexec
    · obtain ⟨-, rfl⟩ | ⟨u, hu, rfl⟩ := exec_run_eq_next hexec
      · exact hs
      · exact hs.of_step (t := u) hu
    · obtain ⟨hbeyond, hsame⟩ := nodeAt_of_exec_setup hexec hn
      obtain ⟨-, -, -, -, -, rfl⟩ := exec_setup_eq_next hexec
      refine ⟨hsame, ?_⟩
      simp [placeSpecs, hk]
      omega
    · exact hs
  · obtain ⟨u, hu, rfl⟩ := exec_round_eq_next_iff.mp hexec
    exact hs.of_round (t := u) hu

/-- Settles O53: every event is appended by an `emit`, which takes the tick of the bus. -/
theorem eventStreamOnlyGrows : Obligations.EventStreamOnlyGrows := fun _ _ _ => eventsGrow_of_exec

/-- Settles O55: the node-level commands and ROUND keep the rest of the state, of which TRANSMIT, EVICT and ROUND
reach the bus; every other operation writes the registers it owns. -/
theorem sharedRegistersHaveOwners : Obligations.SharedRegistersHaveOwners := by
  intro i s t hexec
  have howners : Owners i s t := by
    cases hlevel : nodeLevel i with
    | true => exact owners_of_nodeLevel hlevel hexec
    | false => exact owners_of_not_nodeLevel hlevel hexec
  obtain ⟨hconnected, honBus, hticks, hconfig, hpause, hstop, hstrap, hphase⟩ := howners
  exact ⟨hconnected, honBus, hticks, hconfig, hpause, hstop, hstrap, hphase⟩

end Sys2Proof.Machine
end

section
/-!
The invariant that every step keeps (10_state.md sections 3 to 5). What it says of a node record survives every write to
one; the other parts are read off the writes of an operation, off the closed form of SETUP, and off the state after
RESET.
-/

namespace Sys2Proof.Machine

open Relation

/-! ## What the invariant says of one node record -/

/-- Frames of 1 to 15 bytes (R26), no pending frame without a head (R32), a canonical listener set without the node
itself (R33). -/
structure NodeOk (n : Node) : Prop where
  frames : ∀ f ∈ undelivered n, f.wf = true
  queue : n.next = none → n.pending = []
  listeners : n.id ∉ n.listeners ∧ ascending n.listeners = true

section NodeOk

variable {n m : Node}

theorem wf_of_sentFields_eq {f g : Frame} (h : sentFields f = sentFields g) : f.wf = g.wf := by
  have hdata : f.data = g.data := congrArg (·.2.2) h
  rw [Frame.wf, Frame.wf, hdata]

theorem Evolves.queue (h : Evolves n m) (hn : n.next = none → n.pending = []) (hm : m.next = none) :
    m.pending = [] := by
  induction h with
  | refl => exact hn hm
  | tail _ hw ih =>
    cases hw with
    | status | receiveError => exact ih hm
    | pop => exact popNext_queue hm
    | failure => exact ih (by simpa using hm)

theorem NodeOk.evolves (h : NodeOk n) (hevolves : Evolves n m) : NodeOk m where
  frames := by
    intro f hf
    have hmem := hevolves.undelivered_suffix.subset (List.mem_map_of_mem (f := sentFields) hf)
    obtain ⟨g, hg, hsame⟩ := List.mem_map.mp hmem
    exact wf_of_sentFields_eq hsame ▸ h.frames g hg
  queue := hevolves.queue h.queue
  listeners := by
    rw [hevolves.id_eq, hevolves.listeners_eq]
    exact h.listeners

theorem undelivered_specNode (x : NodeSpec) : undelivered (specNode x) = x.frames := by
  cases h : x.frames <;> simp [undelivered, specNode, h]

/-- The record of a well-formed node spec (R161, R241). -/
theorem nodeOk_specNode {x : NodeSpec} (hwf : x.wf = true) (hself : x.id ∉ x.listeners) : NodeOk (specNode x) where
  frames := by
    rw [NodeSpec.wf, Bool.and_eq_true, List.all_eq_true] at hwf
    rw [undelivered_specNode]
    exact hwf.2
  queue := by
    intro h
    have hempty : x.frames = [] := List.head?_eq_none_iff.mp h
    simp [specNode, hempty]
  listeners := ⟨hself, ascending_of_wf hwf⟩

end NodeOk

/-! ## The writes of a round -/

section Writes

variable {S : Set Nat} {s t : State}

theorem Inv.nodeOk (h : Inv s) {k : Nat} {n : Node} (hn : nodeAt s k = some n) : NodeOk n :=
  ⟨h.nodeFrames k n hn, h.queue k n hn, h.listeners k n hn⟩

/-- The frame on the bus was a head frame (R166). -/
theorem RoundWrites.busFrame (h : RoundWrites S s t) (hnodes : ∀ k n, nodeAt s k = some n → NodeOk n)
    (hbus : ∀ f, s.busOnBus = some f → f.wf = true) : ∀ f, t.busOnBus = some f → f.wf = true := by
  induction h with
  | refl => exact hbus
  | tail hws hw ih =>
    cases hw with
    | arb h => cases h <;> simpa using ih
    | publish hf =>
      rename_i k f
      rintro _ ⟨⟩
      obtain ⟨m, hm, hnext⟩ := Option.bind_eq_some_iff.mp hf
      obtain ⟨n, hn, hevolves⟩ := (RoundWrites.nodesEvolve hws).older hm
      exact ((hnodes _ n hn).evolves hevolves).frames f (by simp [undelivered, hnext])
    | clear => exact nofun
    | node | disconnect | phase | ackSeen => simpa using ih

/-- The writes of a round keep the invariant but for the phase, which is IDLE again when the operation ends (R211). -/
theorem Inv.of_roundWrites (h : Inv s) (hw : RoundWrites S s t) (hphase : t.seqPhase = .idle) : Inv t := by
  have hnodes (k : Nat) (m : Node) (hm : nodeAt t k = some m) : NodeOk m := by
    obtain ⟨n, hn, hevolves⟩ := hw.nodesEvolve.older hm
    exact (h.nodeOk hn).evolves hevolves
  have hsub := hw.connected_sublist
  obtain ⟨new, hnew, hticks⟩ := hw.events_grow
  have hrest := hw.restOf_eq
  simp only [restOf, Rest.mk.injEq] at hrest
  obtain ⟨-, hbusTick, hdrvTick, -, -, hsetup, hrunning, hlimit, -⟩ := hrest
  exact {
    phaseIdle := hphase
    nodeFrames := fun k m hm => (hnodes k m hm).frames
    busFrame := hw.busFrame (fun _ _ => h.nodeOk) h.busFrame
    queue := fun k m hm => (hnodes k m hm).queue
    listeners := fun k m hm => (hnodes k m hm).listeners
    connectedNodes := by
      intro k hk
      obtain ⟨n, hn⟩ := Option.isSome_iff_exists.mp (h.connectedNodes k (hsub.subset hk))
      obtain ⟨m, hm, -⟩ := hw.nodesEvolve.node hn
      rw [hm, Option.isSome_some]
    connectedNodup := hsub.nodup h.connectedNodup
    errorLimit := hsetup ▸ hlimit ▸ h.errorLimit
    running := hsetup ▸ hrunning ▸ h.running
    beforeSetup := by
      intro hs
      rw [hsetup] at hs
      obtain ⟨hconnected, htick⟩ := h.beforeSetup hs
      exact ⟨List.sublist_nil.mp (hconnected ▸ hsub), hbusTick ▸ hdrvTick ▸ htick⟩
    tickOrder := hbusTick ▸ hdrvTick ▸ h.tickOrder
    eventTicks := by
      intro e he
      rw [hbusTick]
      rw [hnew, List.mem_append] at he
      exact he.elim (h.eventTicks e) fun he => (hticks e he).le
    indices := hw.indices_le h.indices }

end Writes

/-! ## The other operations -/

section Operations

variable {s t : State} {i : Instr}

/-- The result and the host's ports and requests are in no part of the invariant. -/
theorem Inv.of_ports (h : Inv s) (r : Result) (c : List Command) (a : List Arrival) (p q : Bool) :
    Inv { s with result := r, commands := c, arrivals := a, drvPauseReq := p, drvStopReq := q } := { h with }

theorem Inv.setResult (h : Inv s) (r : Result) : Inv (setResult s r) := { h with }

theorem Inv.setRunning (h : Inv s) {b : Bool} (hb : b = true → s.drvSetupDone = true) : Inv (setRunning s b) :=
  { h with running := hb }

/-- STEP copies the driver's tick to the bus (R243). -/
theorem Inv.setBusTick (h : Inv s) : Inv (setBusTick s s.drvTick) :=
  { h with
    beforeSetup := fun hs =>
      have ⟨hconnected, _, htick⟩ := h.beforeSetup hs
      ⟨hconnected, htick, htick⟩
    tickOrder := le_rfl
    eventTicks := fun e he => (h.eventTicks e he).trans h.tickOrder }

theorem Inv.nextTick (h : Inv s) (hs : s.drvSetupDone = true) : Inv (setDrvTick s (s.drvTick + 1)) :=
  { h with
    beforeSetup := fun hs' => absurd (hs.symm.trans hs') Bool.noConfusion
    tickOrder := Nat.le_succ_of_le h.tickOrder }

theorem Inv.of_round (h : Inv s) (hround : round s = .next t) : Inv t :=
  h.of_roundWrites (roundWrites_round hround) ((bus_of_round hround).2.trans h.phaseIdle)

theorem Inv.of_step (h : Inv s) (hstep : exec .step s = .next t) : Inv t := by
  obtain ⟨u, hu, rfl⟩ := exec_step_eq_next_iff.mp hstep
  obtain ⟨hsetup, -⟩ := round_eq_next_iff.mp hu
  have hsetup' : u.drvSetupDone = true := (congrArg Rest.drvSetupDone (roundWrites_round hu).restOf_eq).trans hsetup
  exact ((h.setBusTick.of_round hu).nextTick hsetup').setResult _

theorem Inv.of_run (h : Inv s) (hrun : exec .run s = .next t) : Inv t := by
  obtain ⟨-, rfl⟩ | ⟨u, hu, rfl⟩ := exec_run_eq_next hrun
  · exact (h.setResult _).setRunning nofun
  · obtain ⟨v, hv, rfl⟩ := exec_step_eq_next_iff.mp hu
    obtain ⟨hsetup, -⟩ := round_eq_next_iff.mp hv
    exact (h.of_step hu).setRunning fun _ => (congrArg Rest.drvSetupDone (roundWrites_round hv).restOf_eq).trans hsetup

theorem Inv.of_nodeInit {k id : Nat} {listeners : List Nat} {frames : List Frame} (h : Inv s)
    (hwf : (Instr.nodeInit k id listeners frames).wf = true)
    (hexec : exec (.nodeInit k id listeners frames) s = .next t) : Inv t := by
  obtain ⟨hslot, hfree, hself, rfl⟩ := exec_nodeInit_eq_next_iff.mp hexec
  have hfresh : freshNode id listeners frames = specNode ⟨id, listeners, frames⟩ := popNext_eq _
  have hself_node : nodeAt (putNode s k (freshNode id listeners frames)) k = some _ := nodeAt_putNode_self hslot
  have hnodes (j : Nat) (m : Node) (hm : nodeAt (putNode s k (freshNode id listeners frames)) j = some m) :
      NodeOk m := by
    by_cases hj : j = k
    · subst hj
      obtain rfl := Option.some.inj (hself_node.symm.trans hm)
      exact hfresh ▸ nodeOk_specNode (x := ⟨id, listeners, frames⟩) hwf hself
    · exact h.nodeOk ((nodeAt_putNode_ne hj).symm.trans hm)
  exact {
    h with
    nodeFrames := fun j m hm => (hnodes j m hm).frames
    queue := fun j m hm => (hnodes j m hm).queue
    listeners := fun j m hm => (hnodes j m hm).listeners
    connectedNodes := by
      intro j hj
      rw [nodeAt_setResult]
      by_cases hk : j = k
      · rw [hk, hself_node, Option.isSome_some]
      · rw [nodeAt_putNode_ne hk]
        exact h.connectedNodes j hj }

theorem Inv.of_setup {limit : Nat} {policy : DupIdPolicy} {specs : List NodeSpec} (h : Inv s)
    (hwf : ∀ n ∈ specs, n.wf = true) (hexec : exec (.setup limit policy specs) s = .next t) : Inv t := by
  obtain ⟨hsetup, hlimit, -, -, hself, rfl⟩ := exec_setup_eq_next hexec
  have hnodes (k : Nat) (m : Node) (hm : nodeAt (placeSpecs 0 specs s) k = some m) : NodeOk m := by
    rw [nodeAt_placeSpecs] at hm
    split at hm
    next hk =>
      obtain rfl := Option.some.inj hm
      exact nodeOk_specNode (hwf _ (List.getElem_mem hk)) (hself _ (List.getElem_mem hk))
    next => exact h.nodeOk hm
  have hconnected : (placeSpecs 0 specs s).busConnected = List.range' 0 specs.length := by
    simp [placeSpecs, (h.beforeSetup hsetup).1]
  exact {
    h with
    nodeFrames := fun j m hm => (hnodes j m hm).frames
    queue := fun j m hm => (hnodes j m hm).queue
    listeners := fun j m hm => (hnodes j m hm).listeners
    connectedNodes := by
      intro k hk
      have hlt : k < specs.length := by simpa [hconnected] using hk
      exact congrArg Option.isSome (nodeAt_placeSpecs.trans (dif_pos hlt))
    connectedNodup := hconnected ▸ List.nodup_range'
    errorLimit := fun _ => hlimit
    running := fun _ => rfl
    beforeSetup := nofun
    eventTicks := by
      intro e he
      obtain he | he := List.mem_append.mp he
      · exact h.eventTicks e he
      · obtain ⟨n, -, rfl⟩ := List.mem_map.mp he
        exact le_rfl }

theorem inv_of_reset (hexec : exec .reset s = .next t) : Inv t := by
  obtain ⟨-, rfl⟩ := execReset_eq_next_iff.mp hexec
  exact { (driverInv_resetOf s.nodes.length).toInv with errorLimit := nofun }

theorem Inv.of_exec (h : Inv s) (hwf : i.wf = true) (hexec : exec i s = .next t) : Inv t := by
  cases hlevel : nodeLevel i with
  | true =>
    have hphase := (owners_of_nodeLevel hlevel hexec).phase
    obtain ⟨k, id, listeners, frames, rfl⟩ | ⟨S, u, r, hu, rfl⟩ := roundWrites_of_nodeLevel hlevel hexec
    · exact h.of_nodeInit hwf hexec
    · exact (h.of_roundWrites hu (hphase.trans h.phaseIdle)).setResult r
  | false =>
    obtain (rfl | rfl | rfl) | ⟨limit, policy, specs, rfl⟩ | ⟨r, p, q, rfl⟩ :=
      exec_eq_next_of_not_nodeLevel hlevel hexec
    · exact inv_of_reset hexec
    · exact h.of_step hexec
    · exact h.of_run hexec
    · exact h.of_setup (List.all_eq_true.mp hwf) hexec
    · exact h.of_ports r s.commands s.arrivals p q

theorem Inv.acceptArrival (h : Inv s) : Inv (acceptArrival s) := by
  rw [acceptArrival_eq]
  exact h.of_ports ..

end Operations

/-! ## The obligation -/

/-- Settles O48: a step keeps the state, takes an iteration of RUN after the arrivals, or executes a well-formed
operation with its command taken from the queue. -/
theorem everyStepKeepsInvariant : Obligations.EveryStepKeepsInvariant := by
  intro s t hinv hstep
  obtain ⟨-, hrun⟩ | ⟨-, -, rfl⟩ | ⟨-, -, c, rest, i, -, -, hwf, -, hexec⟩ := step_eq_next_iff.mp hstep
  · exact hinv.acceptArrival.of_run hrun
  · exact hinv
  · exact Inv.of_exec (hinv.of_ports s.result rest s.arrivals s.drvPauseReq s.drvStopReq) hwf hexec

end Sys2Proof.Machine
end

section
/-!
Arbitration that selects a winner (43_arbiter.md R195 to R199) and its events (44_sequencer.md R226, lines 1 to 4). The
index at which the winner is known is the first at which it is the only contender left; the events are followed through
the loop from the state before it, by the contenders left at an index.
-/

namespace Sys2Proof.Machine

/-! ## The index at which the winner is known (R197) -/

section WonAt

variable {s : State} {k w i j : Nat}

theorem length_contendersAt_eq_one_iff (hw : w ∈ eligibleSlots s) :
    ((contendersAt s w i).length == 1) = true ↔ contendersAt s w i = [w] := by
  rw [beq_iff_eq, List.length_eq_one_iff]
  constructor
  · rintro ⟨k, hk⟩
    have hmem := self_mem_contendersAt hw i
    rw [hk, List.mem_singleton] at hmem
    rw [hk, hmem]
  · exact fun h => ⟨w, h⟩

theorem wonAtOf_of_never_alone (hw : w ∈ eligibleSlots s) (h : ∀ m < 11, contendersAt s w m ≠ [w]) :
    wonAtOf s w = 11 := by
  refine List.findIdx_eq_length.mpr fun m hm => ?_
  rw [← Bool.not_eq_true, length_contendersAt_eq_one_iff hw]
  exact h m (List.mem_range.mp hm)

theorem wonAtOf_of_aloneFirstAt (hw : w ∈ eligibleSlots s) (hj : j ≤ 11) (h : AloneFirstAt s w j) :
    wonAtOf s w = j := by
  obtain ⟨halone, hbefore⟩ := h
  obtain hj | rfl := Nat.lt_or_eq_of_le hj
  · rw [wonAtOf, List.findIdx_eq (by simpa using hj)]
    refine ⟨by simpa using (length_contendersAt_eq_one_iff hw).mpr halone, fun m hm => ?_⟩
    rw [← Bool.not_eq_true, List.getElem_range, length_contendersAt_eq_one_iff hw]
    exact hbefore m hm
  · exact wonAtOf_of_never_alone hw hbefore

theorem contendersAt_ne_of_lt_wonAtOf (hw : w ∈ eligibleSlots s) (h : i < wonAtOf s w) : contendersAt s w i ≠ [w] := by
  have hnot := List.not_of_lt_findIdx (xs := List.range 11) (i := i) h
  rwa [List.getElem_range, ← Bool.not_eq_true, length_contendersAt_eq_one_iff hw] at hnot

/-- Where w is known before the last index, it is alone. -/
theorem contendersAt_wonAtOf_of_lt (hw : w ∈ eligibleSlots s) (h : wonAtOf s w < 11) :
    contendersAt s w (wonAtOf s w) = [w] := by
  have hlt : wonAtOf s w < (List.range Config.idBits).length := by simpa using h
  have hfound : ((contendersAt s w (List.range Config.idBits)[wonAtOf s w]).length == 1) = true :=
    List.findIdx_getElem (w := hlt)
  rwa [List.getElem_range, length_contendersAt_eq_one_iff hw] at hfound

/-- At the index at which w is known those are left that have its priority. -/
theorem contendersAt_wonAtOf (hw : w ∈ eligibleSlots s) : contendersAt s w (wonAtOf s w) = tiedWith s w := by
  obtain hlt | heq := Nat.lt_or_eq_of_le (wonAtOf_le s w)
  · have halone := contendersAt_wonAtOf_of_lt hw hlt
    have hsub : (contendersAt s w 11).Sublist [w] := halone ▸ contendersAt_sublist hlt.le
    rw [halone, ← contendersAt_eleven hw]
    exact ((List.sublist_singleton.mp hsub).resolve_left (List.ne_nil_of_mem (self_mem_contendersAt hw 11))).symm
  · rw [heq, contendersAt_eleven hw]

theorem wonAtOf_of_tied (hw : w ∈ eligibleSlots s) (h : tiedWith s w ≠ [w]) : wonAtOf s w = 11 := by
  refine (Nat.lt_or_eq_of_le (wonAtOf_le s w)).resolve_left fun hlt => h ?_
  rw [← contendersAt_wonAtOf hw, contendersAt_wonAtOf_of_lt hw hlt]

end WonAt

/-! ## The selected node -/

theorem eq_singleton_of_nodup {l : List Nat} {w : Nat} (hnodup : l.Nodup) (hw : w ∈ l) (h : ∀ k ∈ l, k = w) :
    l = [w] := by
  have hcount : l.count w = 1 := List.count_eq_one_of_mem hnodup hw
  have hlength : l.length = 1 := by rw [← hcount, List.count_eq_length.mpr fun k hk => (h k hk).symm]
  rw [List.eq_replicate_of_mem h, hlength]
  rfl

section Selected

variable {s t : State} {k w i : Nat}

theorem nodup_contendersAt (h : s.busConnected.Nodup) (w i : Nat) : (contendersAt s w i).Nodup :=
  (h.filter _).filter _

/-- The smallest priority is that of w alone exactly if w's is smaller than every other. -/
theorem tiedWith_eq_singleton_iff (hnodup : s.busConnected.Nodup) (hw : HasSmallest s w) :
    tiedWith s w = [w] ↔ IsWinner s w := by
  constructor
  · intro halone
    refine ⟨hw.1, fun k hk hne => lt_of_le_of_ne (hw.2 k hk) fun hsame => hne ?_⟩
    have htied : k ∈ tiedWith s w := List.mem_filter.mpr ⟨hk, by simp [hsame]⟩
    simpa [halone] using htied
  · rintro ⟨-, hless⟩
    refine eq_singleton_of_nodup ((hnodup.filter _).filter _) (List.mem_filter.mpr ⟨hw.1, by simp⟩) fun k hk => ?_
    obtain ⟨hk, hsame⟩ := List.mem_filter.mp hk
    by_contra hne
    exact (hless k hk hne).ne' (by simpa using hsame)

@[simp] theorem announceWinner_seqBitIndex : (announceWinner s).seqBitIndex = s.seqBitIndex := by
  unfold announceWinner
  split <;> simp

/-- t is the state after an arbitration from s that selects w. -/
structure Arbitrated (s : State) (w : Nat) (t : State) : Prop where
  left : LeftAt s w (wonAtOf s w) t
  winner : t.seqWinner = some w
  wonAt : t.seqWonAt = wonAtOf s w
  bitIndex : t.seqBitIndex = wonAtOf s w

theorem arbitrated_announceWinner (h : LeftAt s w (wonAtOf s w) t) :
    Arbitrated s w (announceWinner (setWinner (setBitIndex t (wonAtOf s w)) (some w) (wonAtOf s w))) :=
  ⟨leftAt_announceWinner (h.of_eq rfl rfl fun _ => rfl), by simp, by simp, by simp⟩

/-- Arbitration that selects w: the loop leaves those with w's priority, and w is the winner (R195, R199). -/
theorem arbitrate_of_selected (hquiet : busQuiet s = true) (hnodup : s.busConnected.Nodup) (h : IsSelected s w) :
    ∃ t, arbitrate s = .next t ∧ Arbitrated s w t := by
  have hw := hasSmallest_of_isSelected h
  by_cases halone : tiedWith s w = [w]
  · obtain ⟨v, j, hj, hleft, hfirst, hnext⟩ := arbitrate_of_alone hquiet hw halone
    obtain rfl := wonAtOf_of_aloneFirstAt hw.1 hj hfirst
    exact ⟨_, hnext, arbitrated_announceWinner hleft⟩
  · obtain ⟨hpolicy, -, -, hnotOnes, hlast⟩ := h.resolve_left (mt (tiedWith_eq_singleton_iff hnodup hw).mpr halone)
    obtain ⟨v, hleft, hnext⟩ := (arbitrate_of_tied hquiet hw halone).2 hpolicy
    have hlastDom : lastDomAt s w 11 = some w := (lastDomAt_eleven hw.1).trans ((if_neg hnotOnes).trans hlast)
    have hwonAt := wonAtOf_of_tied hw.1 halone
    rw [hlastDom, ← hwonAt] at hnext
    rw [← hwonAt] at hleft
    exact ⟨_, hnext, arbitrated_announceWinner hleft⟩

end Selected

/-! ## Events appended (R100) -/

/-- The events es have been appended, at the tick of the bus. -/
def Emits (s t : State) (es : List EventKind) : Prop :=
  t.busTick = s.busTick ∧ t.events = s.events ++ es.map fun e => ⟨s.busTick, e⟩

section Emits

variable {s t u : State} {k w i : Nat} {es es' : List EventKind}

theorem emits_nil (htick : t.busTick = s.busTick) (hevents : t.events = s.events) : Emits s t [] :=
  ⟨htick, by simp [hevents]⟩

theorem Emits.trans (h : Emits s t es) (h' : Emits t u es') : Emits s u (es ++ es') := by
  obtain ⟨htick, hevents⟩ := h
  obtain ⟨htick', hevents'⟩ := h'
  exact ⟨htick'.trans htick, by simp [hevents, hevents', htick]⟩

/-- Before and after what leaves the stream and the tick alone. -/
theorem Emits.of_eq {v : State} (h : Emits s t es) (htick : v.busTick = t.busTick) (hevents : v.events = t.events) :
    Emits s v es := ⟨htick.trans h.1, hevents.trans h.2⟩

theorem emits_emit (e : EventKind) : Emits s (emit s e) [e] := ⟨rfl, rfl⟩

theorem emits_emitNode (mk : Node → EventKind) : Emits s (emitNode s k mk) ((nodeAt s k).map mk).toList := by
  refine ⟨emitNode_busTick s k mk, ?_⟩
  rw [emitNode_events]
  cases nodeAt s k <;> rfl

theorem emits_enterStatus (st : Status) :
    Emits s (enterStatus st s k) ((idAt s k).map fun id => .statusChanged id st) := by
  refine ⟨enterStatus_busTick st s k, ?_⟩
  rw [enterStatus_events, idAt]
  cases nodeAt s k <;> rfl

/-- A loop over slots without repeats, in which the events of a slot do not depend on the slots before it. -/
theorem emits_forSlots {f : State → Nat → State} {kinds : State → Nat → List EventKind} {ks : List Nat}
    (hnodup : ks.Nodup) (hemit : ∀ u k, Emits u (f u k) (kinds u k))
    (hlocal : ∀ u k j, j ≠ k → kinds (f u k) j = kinds u j) : Emits s (forSlots f ks s) (ks.flatMap (kinds s)) := by
  induction ks generalizing s with
  | nil => exact emits_nil rfl rfl
  | cons k ks ih =>
    obtain ⟨hk, hks⟩ := List.nodup_cons.mp hnodup
    have hlater : ks.flatMap (kinds (f s k)) = ks.flatMap (kinds s) :=
      List.flatMap_congr fun j hj => hlocal s k j fun h => hk (h ▸ hj)
    rw [List.flatMap_cons, ← hlater]
    exact (hemit s k).trans (ih hks)

theorem idAt_eq_of_sameButStatus (h : SameButStatus s t) : idAt t = idAt s := by
  have through (u : State) (k : Nat) : idAt u k = (((nodeAt u k).map noStatus).map Node.id).toList := by
    rw [Option.map_map]
    rfl
  funext k
  rw [through, h k, ← through]

theorem sameButStatus_enterStatus (st : Status) (s : State) (k : Nat) : SameButStatus s (enterStatus st s k) :=
  sameButStatus_forSlots_enterStatus st [k] s

theorem emits_forSlots_enterStatus {ks : List Nat} (hnodup : ks.Nodup) (st : Status) :
    Emits s (forSlots (enterStatus st) ks s) (ks.flatMap fun k => (idAt s k).map fun id => .statusChanged id st) :=
  emits_forSlots (kinds := fun u k => (idAt u k).map fun id => .statusChanged id st) hnodup
    (fun _ _ => emits_enterStatus st) fun u k j _ => by rw [idAt_eq_of_sameButStatus (sameButStatus_enterStatus st u k)]

/-- The bit a node reports is that of its identifier (R193). -/
theorem emits_reportBits {a : List Nat} (hnodup : a.Nodup) (i : Nat) :
    Emits s (reportBits i a s)
      (a.flatMap fun k => (idAt s k).map fun id => .arbitrationBitResult id i ((headId s k).getD i true)) := by
  have hkinds (k : Nat) : ((nodeAt s k).map fun n => EventKind.arbitrationBitResult n.id i (headBit i n)).toList =
      (idAt s k).map fun id => .arbitrationBitResult id i ((headId s k).getD i true) := by
    unfold idAt headId headFrame headBit
    cases nodeAt s k with
    | none => rfl
    | some n => cases hnext : n.next <;> simp [hnext]
  simp only [← hkinds]
  exact emits_forSlots
    (kinds := fun u k => ((nodeAt u k).map fun n => EventKind.arbitrationBitResult n.id i (headBit i n)).toList)
    hnodup (fun _ _ => emits_emitNode _) fun u k j _ => by rw [nodeAt_emitNode]

end Emits

/-! ## The events of arbitration (R226, lines 1 to 4) -/

section Events

variable {s t u : State} {k w i : Nat}

/-- Line 3 of the canonical order at one index: the bits of the contenders left, then the losers' status changes. -/
def indexEvents (s : State) (w i : Nat) : List EventKind :=
  ((contendersAt s w i).flatMap fun k =>
      (idAt s k).map fun id => .arbitrationBitResult id i ((headId s k).getD i true))
    ++ ((contendersAt s w i).filter fun k => (headId s k).getD i true && !(headId s w).getD i true).flatMap
        fun k => (idAt s k).map fun id => .statusChanged id .idle

theorem emits_enterEligible (hnodup : s.busConnected.Nodup) (hsome : eligibleSlots s ≠ []) :
    Emits s (enterEligible s)
      (((eligibleSlots s).flatMap fun k => (idAt s k).map fun id => .statusChanged id .arbitrating)
        ++ [.arbitrationStarted ((eligibleSlots s).flatMap (idAt s))]) := by
  have hentered := emits_forSlots_enterStatus (s := s) (ks := eligibleSlots s) (hnodup.filter _) .arbitrating
  have hsame := sameButStatus_forSlots_enterStatus .arbitrating (eligibleSlots s) s
  have hids : (eligibleSlots s).flatMap (idAt s) =
      (eligibleSlots s).filterMap fun k =>
        (nodeAt (forSlots (enterStatus .arbitrating) (eligibleSlots s) s) k).map Node.id := by
    rw [← idAt_eq_of_sameButStatus hsame, List.filterMap_eq_flatMap_toList]
    rfl
  have hannounce : enterEligible s = emit (forSlots (enterStatus .arbitrating) (eligibleSlots s) s) _ := if_neg hsome
  rw [hannounce, hids]
  exact hentered.trans (emits_emit _)

/-- One index of the comparator (R193). -/
theorem emits_compareIndex (hnodup : s.busConnected.Nodup) (hw : HasSmallest s w) (h : LeftAt s w i u)
    (ld : Option Nat) : Emits u (compareIndex i (contendersAt s w i) ld u).1 (indexEvents s w i) := by
  have hsame := sameButStatus_of_leftAt h
  have hreport := leftAt_reportBits h i (contendersAt s w i)
  have hbits := emits_reportBits (s := u) (nodup_contendersAt hnodup w i) i
  rw [idAt_eq_of_sameButStatus hsame, headId_eq_of_sameButStatus hsame] at hbits
  unfold compareIndex eliminate indexEvents
  rw [dominantAt_of_leftAt hreport]
  cases hbit : (headId s w).getD i true with
  | true =>
    have nobody : (contendersAt s w i).filter (dominantAt s i) = [] := by
      rw [List.filter_eq_nil_iff]
      intro k hk
      rw [dominantAt_eq, recessive_of_hasSmallest hw hbit hk]
      simp
    rw [if_pos nobody]
    simpa using hbits
  | false =>
    have somebody : (contendersAt s w i).filter (dominantAt s i) ≠ [] :=
      List.ne_nil_of_mem (List.mem_filter.mpr ⟨self_mem_contendersAt hw.1 i, by rw [dominantAt_eq, hbit]; rfl⟩)
    have losers : ((contendersAt s w i).filter fun k => (headId s k).getD i true && !false) =
        (contendersAt s w i).filter fun k => !dominantAt s i k :=
      List.filter_congr fun k _ => by simp [dominantAt_eq]
    rw [if_neg somebody, losers, ← idAt_eq_of_sameButStatus (sameButStatus_of_leftAt hreport)]
    refine Emits.trans ?_ (emits_forSlots_enterStatus ((nodup_contendersAt hnodup w i).filter _) .idle)
    rwa [idAt_eq_of_sameButStatus (sameButStatus_of_leftAt hreport)]

/-- The loop from index i on compares up to the index at which w is known. -/
theorem emits_arbLoop (hquiet : busQuiet s = true) (hnodup : s.busConnected.Nodup) (hw : HasSmallest s w) {n : Nat}
    (hn : i + n = 11) (hi : i ≤ wonAtOf s w) (h : LeftAt s w i u) :
    Emits u (arbLoop (List.range' i n) (lastDomAt s w i) u).st
      ((List.range' i (wonAtOf s w - i)).flatMap (indexEvents s w)) := by
  induction n generalizing i u with
  | zero =>
    have hnone : wonAtOf s w - i = 0 := by
      have := wonAtOf_le s w
      omega
    rw [hnone]
    exact emits_nil rfl rfl
  | succ n ih =>
    have hcont : contenders u = contendersAt s w i := contenders_of_leftAt hquiet h
    rw [List.range'_succ]
    by_cases halone : contendersAt s w i = [w]
    · have hnone : wonAtOf s w - i = 0 :=
        Nat.sub_eq_zero_of_le (Nat.le_of_not_lt fun hlt => contendersAt_ne_of_lt_wonAtOf hw.1 hlt halone)
      rw [hnone, arbLoop_cons_of_alone (hcont.trans halone)]
      exact emits_nil rfl rfl
    · have hlt : i < wonAtOf s w := by
        refine Nat.lt_of_le_of_ne hi fun heq => halone ?_
        rw [heq]
        exact contendersAt_wonAtOf_of_lt hw.1 (by omega)
      have hsome : contenders u ≠ [] := hcont ▸ List.ne_nil_of_mem (self_mem_contendersAt hw.1 i)
      have hseveral : ∀ k, contenders u ≠ [k] := hcont ▸ contendersAt_ne_singleton hw.1 halone
      obtain ⟨hnext, hlast⟩ := leftAt_compareIndex hquiet hw (by omega) (leftAt_setBitIndex h i)
      have hindex := emits_compareIndex hnodup hw (leftAt_setBitIndex h i) (lastDomAt s w i)
      rw [arbLoop_cons_of_several hsome hseveral, hcont, hlast,
        show wonAtOf s w - i = wonAtOf s w - (i + 1) + 1 by omega, List.range'_succ, List.flatMap_cons]
      exact ((emits_nil rfl rfl).trans hindex).trans (ih (by omega) hlt hnext)

/-- An event about the id of a node. -/
theorem emits_emitNode_id (g : Nat → EventKind) : Emits s (emitNode s k fun n => g n.id) ((idAt s k).map g) := by
  have hids : (idAt s k).map g = ((nodeAt s k).map fun n => g n.id).toList := by
    unfold idAt
    cases nodeAt s k <;> rfl
  rw [hids]
  exact emits_emitNode _

theorem emits_announceWinner (hwinner : s.seqWinner = some w) :
    Emits s (announceWinner s) ((idAt s w).map fun id => .arbitrationWon id s.seqWonAt) := by
  rw [announceWinner, hwinner]
  exact emits_emitNode_id (.arbitrationWon · s.seqWonAt)

/-- Lines 1 to 4 of the canonical order (R226). -/
theorem emits_arbitrate (hquiet : busQuiet s = true) (hnodup : s.busConnected.Nodup) (hw : HasSmallest s w)
    (hnext : arbitrate s = .next t) (h : Arbitrated s w t) :
    Emits s t (arbitrationEvents s w (wonAtOf s w) ++ (idAt s w).map fun id => .arbitrationWon id (wonAtOf s w)) := by
  obtain ⟨u, hu, ht⟩ := andThen_eq_next_iff.mp hnext
  cases ht
  have hstart : Emits s (enterEligible (setWinner s none 0)) _ :=
    emits_enterEligible (s := setWinner s none 0) hnodup (List.ne_nil_of_mem hw.1)
  have hloop := emits_arbLoop hquiet hnodup hw (n := 11) rfl (Nat.zero_le _) (leftAt_enterEligible s w)
  rw [lastDomAt_zero, Nat.sub_zero, ← List.range_eq_range', ← List.range_eq_range'] at hloop
  have hended : Emits s u (arbitrationEvents s w (wonAtOf s w)) := by
    refine (hstart.trans hloop).of_eq ?_ ?_
    all_goals
      split at hu
      · cases hu
        rfl
      · obtain ⟨o, i, rfl⟩ := exhaust_eq_next hu
        rfl
  have hid : idAt u w = idAt s w := by
    have hsame := congrFun (idAt_eq_of_sameButStatus (sameButStatus_of_leftAt h.left)) w
    have hnode : nodeAt (announceWinner u) w = nodeAt u w := by
      rw [announceWinner]
      split <;> simp
    rwa [idAt, hnode] at hsame
  have hwinner : u.seqWinner = some w := announceWinner_seqWinner.symm.trans h.winner
  have hwonAt : u.seqWonAt = wonAtOf s w := announceWinner_seqWonAt.symm.trans h.wonAt
  have hwon := emits_announceWinner hwinner
  rw [hid, hwonAt] at hwon
  exact hended.trans hwon

end Events

/-! ## The obligations -/

/-- Settles O29: the loop ends with the nodes of w's priority left, at the first index at which w is alone, or at 11. -/
theorem arbitrationSelectsWinner : Obligations.ArbitrationSelectsWinner := by
  intro s w hquiet hnodup hselected
  have hw := hasSmallest_of_isSelected hselected
  obtain ⟨t, hnext, hleft, hwinner, hwonAt, hbitIndex⟩ := arbitrate_of_selected hquiet hnodup hselected
  obtain ⟨hconnected, honBus, hphase, hackSeen⟩ := (arbWrites_arbitrate hnext).bus_eq
  have hend := contendersAt_wonAtOf hw.1
  refine ⟨_, exec_arbitrate_of_next hquiet hnext, hwinner, hwonAt ▸ wonAtOf_le s w, hbitIndex.trans hwonAt.symm,
    by rw [setResult_result, hwinner, setResult_seqWonAt], fun k hk hne htake => ?_, fun j hj => ?_, fun hnot => ?_,
    hend ▸ hleft.nodes, hconnected, honBus, hphase, hackSeen, restOf_arbitrate (t := t) hnext⟩
  · rw [setResult_seqWonAt, hwonAt] at htake
    have htied : k ∈ tiedWith s w := hend ▸ mem_contendersAt_iff.mpr ⟨hk, htake⟩
    exact hne (by simpa using (List.mem_filter.mp htied).2)
  · rw [setResult_seqWonAt, hwonAt] at hj
    by_contra hnobody
    refine contendersAt_ne_of_lt_wonAtOf hw.1 hj
      (eq_singleton_of_nodup (nodup_contendersAt hnodup w j) (self_mem_contendersAt hw.1 j) fun k hk => ?_)
    obtain ⟨hk, htake⟩ := mem_contendersAt_iff.mp hk
    by_contra hne
    exact hnobody ⟨k, hk, hne, htake⟩
  · exact hwonAt.trans (wonAtOf_of_tied hw.1 (mt (tiedWith_eq_singleton_iff hnodup hw).mp hnot))

/-- Settles O30: the events of step 1, of every compared index and of the announcement, one after the other. -/
theorem arbitrationEventOrder : Obligations.ArbitrationEventOrder := by
  intro s w n hquiet hnodup hselected hn
  obtain ⟨t, hnext, harb⟩ := arbitrate_of_selected hquiet hnodup hselected
  obtain ⟨-, hevents⟩ := emits_arbitrate hquiet hnodup (hasSmallest_of_isSelected hselected) hnext harb
  refine ⟨_, exec_arbitrate_of_next hquiet hnext, ?_⟩
  rw [setResult_events, setResult_seqWonAt, harb.wonAt, hevents, idAt, hn]
  rfl

end Sys2Proof.Machine
end

section
/-!
A round with a winner (44_sequencer.md R213 to R226). Steps 4 to 7 are followed from the state u after arbitration, in
which the winner w holds record m with head frame f; step 8 then gives back to every node but the winner and its
listeners the record it had before the round.
-/

namespace Sys2Proof.Machine

/-! ## Steps 4 to 7 (R213 to R222) -/

/-- The active listeners are read off connections, ids and listener sets (R213). -/
theorem activeListeners_eq_of_sameButStatus {s t : State} (h : SameButStatus s t)
    (hconnected : t.busConnected = s.busConnected) : activeListeners t = activeListeners s := by
  have through (u : State) (w : Nat) : activeListeners u w =
      ((nodeAt u w).map noStatus).elim [] fun n =>
        u.busConnected.filter fun k => ((nodeAt u k).map noStatus).any fun m => n.listeners.contains m.id := by
    unfold activeListeners
    cases nodeAt u w with
    | none => rfl
    | some n =>
      refine List.filter_congr fun k _ => ?_
      cases nodeAt u k <;> rfl
  funext w
  simp only [through, h w, h _, hconnected]

/-- The winner has entered Sending (R213). -/
def sending (u : State) (w : Nat) : State := enterStatus .sending (setPhase u .transmission) w

/-- Step 4 is over: the listeners have entered Receiving, frame f is on the bus and its fields are reported. -/
def published (u : State) (w : Nat) (f : Frame) : State :=
  emitFields w (setOnBus (forSlots (enterStatus .receiving) (activeListeners u w) (sending u w)) (some f))

/-- Step 5 is over: every listener has received the frame. -/
def acknowledged (u : State) (w : Nat) (f : Frame) : State :=
  acknowledgment w (activeListeners u w) (published u w f)

/-- Step 7 is over. -/
def delivered (u : State) (w : Nat) (f : Frame) : State := evictionCheck w (outcome w (acknowledged u w f))

/-- Somebody listens and the frame is valid: what `seq.ackSeen` is after step 5 (R216). -/
def acked (u : State) (w : Nat) (f : Frame) : Bool := !(activeListeners u w).isEmpty && frameValid f

/-- The winner's record n after step 6 has reached the error limit (R222). -/
def reachesLimit (u : State) (w : Nat) (n : Node) (f : Frame) : Bool :=
  decide (u.cfgErrorLimit ≤ (settleJob (acked u w f) n).transmitErrors)

section Steps

variable {u : State} {w k : Nat} {m : Node} {f : Frame}

theorem activeListeners_sending (w : Nat) : activeListeners (sending u w) = activeListeners u :=
  activeListeners_eq_of_sameButStatus (sameButStatus_enterStatus .sending _ w) (enterStatus_busConnected ..)

theorem nodeAt_sending (hm : nodeAt u w = some m) :
    nodeAt (sending u w) k = if k = w then some { m with status := .sending } else nodeAt u k := by
  rw [sending, nodeAt_enterStatus, nodeAt_setPhase, nodeAt_setPhase, hm, Option.map_some]

theorem nodeAt_published (u : State) (w : Nat) (f : Frame) (k : Nat) :
    nodeAt (published u w f) k =
      if k ∈ activeListeners u w then (nodeAt (sending u w) k).map ({ · with status := .receiving })
      else nodeAt (sending u w) k := by
  rw [published, emitFields_field (nodeAt · k) (fun _ _ => nodeAt_emit _), nodeAt_setOnBus, nodeAt_forSlots_enterStatus]

theorem published_onBus (u : State) (w : Nat) (f : Frame) : (published u w f).busOnBus = some f := by
  rw [published, emitFields_field State.busOnBus (fun _ _ => rfl), setOnBus_busOnBus]

theorem nodup_activeListeners (h : u.busConnected.Nodup) (w : Nat) : (activeListeners u w).Nodup := by
  unfold activeListeners
  split
  · exact h.filter _
  · exact List.nodup_nil

theorem acknowledged_ackSeen (u : State) (w : Nat) (f : Frame) : (acknowledged u w f).seqAckSeen = acked u w f :=
  acknowledgment_ackSeen (published_onBus u w f)

/-- The step from arbitration to the eviction check, for a winner that does not receive its own frame. -/
theorem deliver_eq (hm : nodeAt u w = some m) (hf : m.next = some f) (hself : m.id ∉ m.listeners) :
    deliver w u = .next (delivered u w f) := by
  have hout := not_mem_activeListeners_self hm hself
  have hsending : nodeAt (forSlots (enterStatus .receiving) (activeListeners u w) (sending u w)) w =
      some { m with status := .sending } := by
    rw [nodeAt_forSlots_enterStatus, if_neg hout, nodeAt_sending hm, if_pos rfl]
  have htransmission : transmission w (activeListeners u w) (sending u w) = .next (published u w f) :=
    transmission_eq_next_iff.mpr ⟨_, f, hsending, rfl, hf, rfl⟩
  rw [deliver, ← sending, activeListeners_sending, deliverTo, htransmission]
  rfl

theorem restOf_acknowledged (u : State) (w : Nat) (f : Frame) : restOf (acknowledged u w f) = restOf u := by
  have hack : restOf (acknowledged u w f) = restOf (published u w f) :=
    (roundWrites_acknowledgment (S := Set.univ) fun _ _ => trivial).restOf_eq
  rw [hack, published, emitFields_field restOf (fun _ _ => rfl), restOf_setOnBus,
    restOf_forSlots fun _ _ => restOf_enterStatus _, sending, restOf_enterStatus, restOf_setPhase]

theorem acknowledged_connected (u : State) (w : Nat) (f : Frame) :
    (acknowledged u w f).busConnected = u.busConnected := by
  have hack : (acknowledged u w f).busConnected = (published u w f).busConnected :=
    (wiring_eq_iff.mp (wiring_acknowledgment _)).2
  rw [hack, published, emitFields_field State.busConnected (fun _ _ => rfl), setOnBus_busConnected,
    forSlots_enterStatus_connected, sending, enterStatus_busConnected, setPhase_busConnected]

/-- Step 6 settles the winner's record and touches no other (R219, R220). -/
theorem nodeAt_outcome_eq (w : Nat) (u : State) (k : Nat) :
    nodeAt (outcome w u) k = if k = w then (nodeAt u w).map (settleJob u.seqAckSeen) else nodeAt u k := by
  rw [nodeAt_outcome]
  cases u.seqAckSeen <;> rfl

theorem settleJob_status (ok : Bool) (n : Node) (st : Status) :
    settleJob ok { n with status := st } = { settleJob ok n with status := st } := by
  cases ok
  · rfl
  · simp only [settleJob, popNext_eq]
    rfl

section Records

variable (hm : nodeAt u w = some m) (hself : m.id ∉ m.listeners) (hnodup : u.busConnected.Nodup)

include hm hnodup

/-- A record after step 5: a listener has received an invalid frame (R216). -/
theorem nodeAt_acknowledged (k : Nat) :
    nodeAt (acknowledged u w f) k =
      if k ∈ activeListeners u w then
        (nodeAt (sending u w) k).map fun x =>
          { x with
            status := .receiving
            receiveErrors := if frameValid f then x.receiveErrors else x.receiveErrors + 1 }
      else if k = w then some { m with status := .sending }
      else nodeAt u k := by
  rw [acknowledged, nodeAt_acknowledgment (published_onBus u w f) (nodup_activeListeners hnodup w), nodeAt_published]
  by_cases hk : k ∈ activeListeners u w
  · cases hvalid : frameValid f <;> simp [hk, Function.comp_def]
  · simp [hk, nodeAt_sending hm]

/-- Every record but the winner's and the listeners' after step 7. -/
theorem nodeAt_delivered_other (hk : k ∉ activeListeners u w) (hne : k ≠ w) :
    nodeAt (delivered u w f) k = nodeAt u k := by
  rw [delivered, nodeAt_evictionCheck, if_neg (hne ·.2), nodeAt_outcome_eq, if_neg hne,
    nodeAt_acknowledged hm hnodup, if_neg hk, if_neg hne]

include hself

/-- A listener's record after step 7. -/
theorem nodeAt_delivered_listener (hk : k ∈ activeListeners u w) :
    nodeAt (delivered u w f) k = (nodeAt u k).map fun x =>
      { x with
        status := .receiving
        receiveErrors := if frameValid f then x.receiveErrors else x.receiveErrors + 1 } := by
  have hne : k ≠ w := fun h => not_mem_activeListeners_self hm hself (h ▸ hk)
  rw [delivered, nodeAt_evictionCheck, if_neg (hne ·.2), nodeAt_outcome_eq, if_neg hne,
    nodeAt_acknowledged hm hnodup, if_pos hk, nodeAt_sending hm, if_neg hne]

/-- The winner's record after step 5. -/
theorem nodeAt_acknowledged_winner : nodeAt (acknowledged u w f) w = some { m with status := .sending } := by
  rw [nodeAt_acknowledged hm hnodup, if_neg (not_mem_activeListeners_self hm hself), if_pos rfl]

/-- The winner's record after step 6. -/
theorem nodeAt_outcome_winner :
    nodeAt (outcome w (acknowledged u w f)) w = some { settleJob (acked u w f) m with status := .sending } := by
  rw [nodeAt_outcome_eq, if_pos rfl, nodeAt_acknowledged_winner hm hself hnodup, Option.map_some, acknowledged_ackSeen,
    settleJob_status]

theorem limitReached_outcome : limitReached (outcome w (acknowledged u w f)) w = reachesLimit u w m f := by
  have hlimit : (outcome w (acknowledged u w f)).cfgErrorLimit = u.cfgErrorLimit :=
    congrArg Rest.cfgErrorLimit
      (((roundWrites_outcome (S := Set.univ) trivial).restOf_eq).trans (restOf_acknowledged u w f))
  rw [limitReached, nodeAt_outcome_winner hm hself hnodup, hlimit]
  rfl

/-- The winner's record after step 7. -/
theorem nodeAt_delivered_winner :
    nodeAt (delivered u w f) w = some
      { settleJob (acked u w f) m with status := if reachesLimit u w m f then .evicted else .sending } := by
  rw [delivered, nodeAt_evictionCheck, limitReached_outcome hm hself hnodup, nodeAt_outcome_winner hm hself hnodup]
  cases reachesLimit u w m f <;> simp

theorem delivered_connected :
    (delivered u w f).busConnected =
      if reachesLimit u w m f then u.busConnected.filter (· ≠ w) else u.busConnected := by
  have hconnected : (outcome w (acknowledged u w f)).busConnected = u.busConnected :=
    (wiring_eq_iff.mp wiring_outcome).2.trans (acknowledged_connected u w f)
  rw [delivered, evictionCheck_connected, limitReached_outcome hm hself hnodup, hconnected]

end Records

/-! ## The sequencer's registers -/

/-- The registers in which arbitration leaves its result (R195). -/
def winnerRegisters (s : State) : Option Nat × Nat := (s.seqWinner, s.seqWonAt)

theorem winnerRegisters_acknowledged (u : State) (w : Nat) (f : Frame) :
    winnerRegisters (acknowledged u w f) = winnerRegisters u := by
  have hreceive (s : State) (k : Nat) : winnerRegisters (receiveStep s k) = winnerRegisters s := by
    unfold receiveStep receive takeError
    split
    · split <;> simp [winnerRegisters]
    · rfl
  have henter (st : Status) (s : State) (k : Nat) : winnerRegisters (enterStatus st s k) = winnerRegisters s := by
    simp [winnerRegisters]
  have hreport (s : State) : winnerRegisters (reportAck w s) = winnerRegisters s := by simp [reportAck, winnerRegisters]
  have hpublished : winnerRegisters (published u w f) = winnerRegisters u := by
    rw [published, emitFields_field winnerRegisters (fun _ _ => rfl)]
    exact (forSlots_field winnerRegisters (henter .receiving) _ _).trans (henter .sending _ w)
  rw [acknowledged, acknowledgment, hreport, forSlots_field winnerRegisters hreceive]
  exact hpublished

theorem registers_delivered (u : State) (w : Nat) (f : Frame) :
    winnerRegisters (delivered u w f) = winnerRegisters u ∧ (delivered u w f).seqAckSeen = acked u w f := by
  have houtcome (s : State) : winnerRegisters (outcome w s) = winnerRegisters s ∧
      (outcome w s).seqAckSeen = s.seqAckSeen := by
    unfold outcome
    split <;> simp [winnerRegisters, ackSuccess, reportFailure, ackFailure, takeError]
  have hcheck (s : State) : winnerRegisters (evictionCheck w s) = winnerRegisters s ∧
      (evictionCheck w s).seqAckSeen = s.seqAckSeen := by
    unfold evictionCheck
    split <;> simp [winnerRegisters, evict, takeError, disconnect]
  rw [delivered, (hcheck _).1, (hcheck _).2, (houtcome _).1, (houtcome _).2, winnerRegisters_acknowledged,
    acknowledged_ackSeen]
  exact ⟨rfl, rfl⟩

theorem registers_roundReset (s : State) :
    winnerRegisters (roundReset s) = winnerRegisters s ∧ (roundReset s).seqAckSeen = s.seqAckSeen := by
  have hidle (s : State) (k : Nat) :
      (winnerRegisters (idleStep s k), (idleStep s k).seqAckSeen) = (winnerRegisters s, s.seqAckSeen) := by
    unfold idleStep
    split <;> simp [winnerRegisters]
  have hloop := forSlots_field (fun s => (winnerRegisters s, s.seqAckSeen)) hidle s.busConnected
    (setPhase s .roundReset)
  exact Prod.mk.inj hloop

end Steps

/-! ## The whole round (R210, R224) -/

/-- What the round that w wins leaves of the nodes and the connections: the winner's record n is settled, and evicted at
the limit; a listener has counted an invalid frame; every other record is as before. -/
structure RoundOutcome (s : State) (w : Nat) (n : Node) (f : Frame) (t : State) : Prop where
  winner : nodeAt t w = some
    { settleJob (acked s w f) n with status := if reachesLimit s w n f then .evicted else .idle }
  others : ∀ k, k ≠ w → nodeAt t k =
    if frameValid f = false ∧ k ∈ activeListeners s w then
      (nodeAt s k).map fun m => { m with receiveErrors := m.receiveErrors + 1 }
    else nodeAt s k
  connected : t.busConnected =
    if reachesLimit s w n f then s.busConnected.filter (· ≠ w) else s.busConnected

section Round

variable {s u : State} {w v i k : Nat} {n : Node} {f : Frame}

/-- The setting of phases before arbitration is in no part of `LeftAt`. -/
theorem leftAt_of_atArbitration (h : LeftAt (atArbitration s) v i u) : LeftAt s v i u :=
  ⟨h.rest, h.connected, h.nodes⟩

theorem exists_status_of_leftAt (h : LeftAt s v i u) (hn : nodeAt s w = some n) :
    ∃ st, nodeAt u w = some { n with status := st } := by
  rw [h.nodes, hn]
  split
  · exact ⟨.arbitrating, rfl⟩
  · exact ⟨n.status, rfl⟩

theorem activeListeners_of_leftAt (h : LeftAt s v i u) : activeListeners u = activeListeners s :=
  activeListeners_eq_of_sameButStatus (sameButStatus_of_leftAt h) h.connected

theorem acked_of_leftAt (h : LeftAt s v i u) : acked u w f = acked s w f := by
  rw [acked, activeListeners_of_leftAt h, acked]

theorem reachesLimit_of_leftAt (h : LeftAt s v i u) (st : Status) :
    reachesLimit u w { n with status := st } f = reachesLimit s w n f := by
  have hlimit : u.cfgErrorLimit = s.cfgErrorLimit := congrArg Rest.cfgErrorLimit h.rest
  rw [reachesLimit, acked_of_leftAt h, settleJob_status, hlimit]
  rfl

theorem settleJob_id (ok : Bool) : (settleJob ok n).id = n.id := by
  cases ok <;> simp [settleJob]

theorem roundOutcome_delivered (hquiet : busQuiet s = true) (hnodup : s.busConnected.Nodup) (hleft : LeftAt s v i u)
    (hw : w ∈ s.busConnected) (hn : nodeAt s w = some n) (hself : n.id ∉ n.listeners) :
    RoundOutcome s w n f (roundReset (delivered u w f)) := by
  obtain ⟨st, hm⟩ := exists_status_of_leftAt hleft hn
  have hnodup : u.busConnected.Nodup := hleft.connected.symm ▸ hnodup
  have hconnected := delivered_connected (f := f) hm hself hnodup
  rw [reachesLimit_of_leftAt hleft, hleft.connected] at hconnected
  refine ⟨?_, fun k hne => ?_, by rw [roundReset_connected, hconnected]⟩
  · rw [nodeAt_roundReset, hconnected, nodeAt_delivered_winner hm hself hnodup, reachesLimit_of_leftAt hleft,
      acked_of_leftAt hleft, settleJob_status]
    cases reachesLimit s w n f <;> simp [hw]
  · have hk : k ∈ (delivered u w f).busConnected ↔ k ∈ u.busConnected := by
      rw [hconnected, hleft.connected]
      split <;> simp [hne]
    have hback := nodeAt_roundReset_of_leftAt hquiet hleft k
    rw [nodeAt_roundReset] at hback ⊢
    simp only [hk]
    rw [← activeListeners_of_leftAt hleft, ← hback]
    by_cases hlistens : k ∈ activeListeners u w
    · rw [if_pos (activeListeners_subset hlistens), nodeAt_delivered_listener hm hself hnodup hlistens]
      cases hvalid : frameValid f <;> simp [hlistens, activeListeners_subset hlistens, Function.comp_def]
    · have hnot : ¬(frameValid f = false ∧ k ∈ activeListeners u w) := fun h => hlistens h.2
      rw [nodeAt_delivered_other hm hnodup hlistens hne, if_neg hnot]

/-- A round with a winner (R210). -/
theorem roundBody_of_winner (harb : arbitrate (atArbitration s) = .next u) (hwinner : u.seqWinner = some w)
    (hleft : LeftAt s v i u) (hn : nodeAt s w = some n) (hf : n.next = some f) (hself : n.id ∉ n.listeners) :
    roundBody s = .next (roundReset (delivered u w f)) := by
  obtain ⟨st, hm⟩ := exists_status_of_leftAt hleft hn
  simp only [roundBody, harb, andThen_next, hwinner, deliver_eq hm hf hself]

/-- The round that selects w (R195, R199, R210). -/
theorem exec_round_of_selected (hready : RoundReady s) (hselected : IsSelected s w) (hn : nodeAt s w = some n)
    (hf : n.next = some f) (hself : n.id ∉ n.listeners) :
    ∃ u, arbitrate (atArbitration s) = .next u ∧ Arbitrated (atArbitration s) w u ∧
      exec .round s = .next (setResult (roundReset (delivered u w f)) .none) ∧
      restOf (roundReset (delivered u w f)) = restOf s ∧
      winnerRegisters (roundReset (delivered u w f)) = (some w, wonAtOf s w) ∧
      (roundReset (delivered u w f)).seqAckSeen = acked s w f ∧
      RoundOutcome s w n f (roundReset (delivered u w f)) := by
  have hround := round_of_roundReady hready
  obtain ⟨-, hquiet, -, hnodup⟩ := hready
  obtain ⟨u, harb, hu⟩ := arbitrate_of_selected (s := atArbitration s) hquiet hnodup hselected
  have hleft := leftAt_of_atArbitration hu.left
  have hw : w ∈ s.busConnected := (mem_eligibleSlots_iff.mp (hasSmallest_of_isSelected hselected).1).1
  have hbody := roundBody_of_winner harb hu.winner hleft hn hf hself
  obtain ⟨hregisters, hackSeen⟩ := registers_roundReset (delivered u w f)
  obtain ⟨hregisters', hackSeen'⟩ := registers_delivered u w f
  refine ⟨u, harb, hu, exec_round_eq_next_iff.mpr ⟨_, hround.trans hbody, rfl⟩, restOf_roundBody hbody, ?_, ?_,
    roundOutcome_delivered hquiet hnodup hleft hw hn hself⟩
  · rw [hregisters, hregisters', winnerRegisters, hu.winner, hu.wonAt]
    rfl
  · rw [hackSeen, hackSeen', acked_of_leftAt hleft]

end Round

/-! ## The obligations -/

/-- Settles O34: the frame is acknowledged, so the winner's record is popped and stays below the limit. -/
theorem roundDeliversValidFrame : Obligations.RoundDeliversValidFrame := by
  intro s w n f hready hselected hn hf hself hbelow hvalid hlisteners
  have hack : acked s w f = true := by simpa [acked, hvalid] using hlisteners
  have hsettled : settleJob true n = { n with next := n.pending.head?, pending := n.pending.tail } := popNext_eq n
  have hlimit : reachesLimit s w n f = false := by
    rw [reachesLimit, hack, hsettled]
    exact decide_eq_false (Nat.not_le.mpr hbelow)
  have hidle : n.status = .idle := by
    obtain ⟨m, hm, hidle⟩ := idle_of_busQuiet hready.2.1
      (mem_eligibleSlots_iff.mp (hasSmallest_of_isSelected hselected).1).1
    obtain rfl := Option.some.inj (hn.symm.trans hm)
    exact hidle
  obtain ⟨u, -, -, hexec, hrest, hregisters, hackSeen, hwinner, hothers, hconnected⟩ :=
    exec_round_of_selected hready hselected hn hf hself
  rw [hlimit] at hwinner hconnected
  refine ⟨_, hexec, fun k => ?_, hconnected, rfl, rfl, congrArg Prod.fst hregisters, hackSeen.trans hack, rfl, hrest⟩
  split
  next hk =>
    rw [hk]
    refine hwinner.trans ?_
    rw [hack, hsettled, ← hidle]
    rfl
  next hk => simpa [hvalid] using hothers k hk

/-- Settles O35: the frame is not acknowledged, so the winner's record counts the failure, and the limit decides on the
eviction. -/
theorem roundFailureCountsAndEvicts : Obligations.RoundFailureCountsAndEvicts := by
  intro s w n f hready hselected hn hf hself hfails
  have hack : acked s w f = false := by
    obtain hinvalid | hnobody := hfails
    · simp [acked, hinvalid]
    · simp [acked, hnobody]
  have hlimit : reachesLimit s w n f = decide (s.cfgErrorLimit ≤ n.transmitErrors + 1) := by
    rw [reachesLimit, hack]
    rfl
  have hcounts (k : Nat) : (frameValid f = false ∧ k ∈ activeListeners s w) ↔ k ∈ activeListeners s w := by
    obtain hinvalid | hnobody := hfails
    · simp [hinvalid]
    · simp [hnobody]
  obtain ⟨u, -, -, hexec, hrest, hregisters, hackSeen, hwinner, hothers, hconnected⟩ :=
    exec_round_of_selected hready hselected hn hf hself
  simp only [hlimit, decide_eq_true_eq, hcounts] at hwinner hconnected hothers
  refine ⟨_, hexec, hwinner.trans ?_, hothers, hconnected, rfl, rfl, congrArg Prod.fst hregisters, hackSeen.trans hack,
    rfl, hrest⟩
  rw [hack, settleJob, if_neg Bool.false_ne_true, hf, Option.map_some, repairFrame, crc16_eq_crcSerial]

end Sys2Proof.Machine
end

section
/-!
The events of a round with a winner (44_sequencer.md R226, lines 5 to 12). Steps 4 to 7 are followed part by part from
the state u after arbitration, in which the winner w holds record m with head frame f; step 8 reports every connected
node that is not idle.
-/

namespace Sys2Proof.Machine

section Steps

variable {S : Set Nat} {s t u : State} {w k : Nat} {m n : Node} {f : Frame}

theorem idAt_of_nodeAt (hn : nodeAt s k = some n) : idAt s k = [n.id] := by
  rw [idAt, hn]
  rfl

theorem RoundWrites.idAt_eq (h : RoundWrites S s t) : idAt t = idAt s := by
  funext k
  have hk := h.nodesEvolve k
  unfold idAt
  generalize nodeAt s k = before at hk ⊢
  generalize nodeAt t k = after at hk ⊢
  cases hk with
  | none => rfl
  | some h => simp [h.id_eq]

/-! ## Steps 4 to 7 (R213 to R222) -/

theorem emits_emitNode_of_nodeAt (hn : nodeAt s k = some n) (mk : Node → EventKind) :
    Emits s (emitNode s k mk) [mk n] := by
  have h := emits_emitNode (s := s) (k := k) mk
  rwa [hn] at h

theorem emits_frameFields (hn : nodeAt s w = some n) (ps : List (FieldName × Bits)) :
    Emits s (ps.foldl (fun s p => emitNode s w fun n => .frameFieldSent n.id p.1 p.2) s)
      (ps.map fun p => .frameFieldSent n.id p.1 p.2) := by
  induction ps generalizing s with
  | nil => exact emits_nil rfl rfl
  | cons p ps ih =>
    exact (emits_emitNode_of_nodeAt hn _).trans (ih ((nodeAt_emitNode _).trans hn))

section Records

variable (hm : nodeAt u w = some m) (hself : m.id ∉ m.listeners) (hnodup : u.busConnected.Nodup)

include hm

theorem emits_sending : Emits u (sending u w) [.statusChanged m.id .sending] := by
  have henter := emits_enterStatus (s := setPhase u .transmission) (k := w) .sending
  rw [idAt_of_nodeAt (s := setPhase u .transmission) hm] at henter
  exact (emits_nil (t := setPhase u .transmission) rfl rfl).trans henter

include hself hnodup

theorem emits_published :
    Emits (sending u w) (published u w f)
      (((activeListeners u w).flatMap fun k => (idAt u k).map fun id => .statusChanged id .receiving)
        ++ (traceFields f u.seqWonAt).map fun p => .frameFieldSent m.id p.1 p.2) := by
  have hreceiving := emits_forSlots_enterStatus (s := sending u w) (nodup_activeListeners hnodup w) .receiving
  rw [idAt_eq_of_sameButStatus (t := sending u w) (sameButStatus_enterStatus .sending _ w)] at hreceiving
  have hwonAt : (forSlots (enterStatus .receiving) (activeListeners u w) (sending u w)).seqWonAt = u.seqWonAt := by
    rw [forSlots_field State.seqWonAt (enterStatus_seqWonAt .receiving), sending, enterStatus_seqWonAt,
      setPhase_seqWonAt]
  have hw : nodeAt (setOnBus (forSlots (enterStatus .receiving) (activeListeners u w) (sending u w)) (some f)) w =
      some { m with status := .sending } := by
    rw [nodeAt_setOnBus, nodeAt_forSlots_enterStatus, if_neg (not_mem_activeListeners_self hm hself),
      nodeAt_sending hm, if_pos rfl]
  rw [← hwonAt]
  exact (hreceiving.of_eq rfl rfl).trans (emits_frameFields hw _)

theorem emits_acknowledged :
    Emits (published u w f) (acknowledged u w f) [.acknowledgmentResult m.id (acked u w f)] := by
  have hreceive (s : State) (k : Nat) :
      ((receiveStep s k).busTick, (receiveStep s k).events) = (s.busTick, s.events) := by
    unfold receiveStep receive takeError
    split
    · split <;> simp
    · rfl
  have hloop := forSlots_field (fun s => (s.busTick, s.events)) hreceive (activeListeners u w)
    (setAckSeen (setPhase (published u w f) .acknowledgment) false)
  obtain ⟨htick, hevents⟩ := Prod.mk.inj hloop
  have hw := nodeAt_acknowledged_winner (f := f) hm hself hnodup
  have hack := acknowledged_ackSeen u w f
  simp only [acknowledged, acknowledgment, reportAck, nodeAt_emitNode, emitNode_seqAckSeen] at hw hack ⊢
  have hreport := emits_emitNode_of_nodeAt hw fun n => .acknowledgmentResult n.id (acked u w f)
  rw [hack]
  exact (emits_nil htick hevents).trans hreport

theorem emits_outcome :
    Emits (acknowledged u w f) (outcome w (acknowledged u w f))
      (if acked u w f then [] else [.transmitFailure m.id (m.transmitErrors + 1)]) := by
  unfold outcome
  rw [acknowledged_ackSeen]
  cases hack : acked u w f with
  | true => exact emits_nil (by simp [ackSuccess]) (by simp [ackSuccess])
  | false =>
    have hfailed : nodeAt (ackFailure w (setPhase (acknowledged u w f) .outcome)) w =
        some { m with status := .sending, transmitErrors := m.transmitErrors + 1, next := m.next.map repairFrame } := by
      rw [ackFailure, takeError, nodeAt_updateNode_self, nodeAt_setPhase, nodeAt_acknowledged_winner hm hself hnodup]
      rfl
    have hcounted : Emits (acknowledged u w f) (ackFailure w (setPhase (acknowledged u w f) .outcome)) [] :=
      emits_nil (updateNode_busTick ..) (updateNode_events ..)
    exact hcounted.trans (emits_emitNode_of_nodeAt hfailed _)

end Records

theorem emits_evict (hn : nodeAt s w = some n) : Emits s (evict w s) [.nodeEvicted n.id] := by
  have hevicted (ks : List Nat) : nodeAt (setConnected (updateNode s w ({ · with status := .evicted })) ks) w =
      some { n with status := .evicted } := by
    rw [nodeAt_setConnected, nodeAt_updateNode_self, hn, Option.map_some]
  have hupdated : Emits s (updateNode s w ({ · with status := .evicted })) [] :=
    emits_nil (updateNode_busTick ..) (updateNode_events ..)
  exact (hupdated.of_eq rfl rfl).trans (emits_emitNode_of_nodeAt (hevicted _) _)

theorem emits_evictionCheck (hm : nodeAt u w = some m) (hself : m.id ∉ m.listeners) (hnodup : u.busConnected.Nodup) :
    Emits (outcome w (acknowledged u w f)) (delivered u w f)
      (if reachesLimit u w m f then [.nodeEvicted m.id] else []) := by
  have hw := nodeAt_outcome_winner (f := f) hm hself hnodup
  unfold delivered evictionCheck
  rw [limitReached_outcome hm hself hnodup]
  cases reachesLimit u w m f with
  | true =>
    have hevict := emits_evict (s := setPhase (outcome w (acknowledged u w f)) .evictionCheck) hw
    rw [settleJob_id] at hevict
    exact (emits_nil rfl rfl).trans hevict
  | false => exact emits_nil rfl rfl

/-- Lines 5 to 10 of the canonical order (R226). -/
def stepEvents (u : State) (w : Nat) (m : Node) (f : Frame) : List EventKind :=
  [.statusChanged m.id .sending]
    ++ (((activeListeners u w).flatMap fun k => (idAt u k).map fun id => .statusChanged id .receiving)
      ++ (traceFields f u.seqWonAt).map fun p => .frameFieldSent m.id p.1 p.2)
    ++ [.acknowledgmentResult m.id (acked u w f)]
    ++ (if acked u w f then [] else [.transmitFailure m.id (m.transmitErrors + 1)])
    ++ (if reachesLimit u w m f then [.nodeEvicted m.id] else [])

theorem emits_delivered (hm : nodeAt u w = some m) (hself : m.id ∉ m.listeners) (hnodup : u.busConnected.Nodup) :
    Emits u (delivered u w f) (stepEvents u w m f) :=
  ((((emits_sending hm).trans (emits_published hm hself hnodup)).trans (emits_acknowledged hm hself hnodup)).trans
    (emits_outcome hm hself hnodup)).trans (emits_evictionCheck hm hself hnodup)

theorem idAt_delivered (hm : nodeAt u w = some m) (hf : m.next = some f) (hself : m.id ∉ m.listeners) :
    idAt (delivered u w f) = idAt u :=
  (roundWrites_deliver (S := Set.univ) (fun _ _ => trivial) trivial (deliver_eq hm hf hself)).idAt_eq

theorem delivered_nodup (hm : nodeAt u w = some m) (hself : m.id ∉ m.listeners) (hnodup : u.busConnected.Nodup) :
    (delivered u w f).busConnected.Nodup := by
  rw [delivered_connected hm hself hnodup]
  split
  · exact hnodup.filter _
  · exact hnodup

/-! ## Step 8 (R224) -/

theorem flatMap_filter {α β : Type} (p : α → Bool) (g : α → List β) (l : List α) :
    (l.filter p).flatMap g = l.flatMap fun a => if p a then g a else [] := by
  induction l with
  | nil => rfl
  | cons a l ih => cases h : p a <;> simp [h, ih]

/-- What step 8 reports of slot k. -/
def idleEvents (s : State) (k : Nat) : List EventKind :=
  if !statusIs s .idle k then (idAt s k).map fun id => .statusChanged id .idle else []

theorem emits_idleStep : Emits s (idleStep s k) (idleEvents s k) := by
  unfold idleStep idleEvents
  cases statusIs s .idle k with
  | true => exact emits_nil rfl rfl
  | false => exact emits_enterStatus .idle

theorem idleEvents_idleStep_of_ne {j : Nat} (h : j ≠ k) : idleEvents (idleStep s k) j = idleEvents s j := by
  have hj : nodeAt (idleStep s k) j = nodeAt s j := by rw [nodeAt_idleStep, if_neg h]
  unfold idleEvents statusIs idAt
  rw [hj]

/-- Step 8 reports the connected nodes that were not idle. -/
theorem emits_roundReset (hnodup : s.busConnected.Nodup) :
    Emits s (roundReset s)
      (((s.busConnected.filter fun k => !statusIs s .idle k).flatMap fun k =>
          (idAt s k).map fun id => .statusChanged id .idle) ++ [.roundReset]) := by
  have hloop : Emits (setPhase s .roundReset) (forSlots idleStep s.busConnected (setPhase s .roundReset))
      (s.busConnected.flatMap (idleEvents (setPhase s .roundReset))) :=
    emits_forSlots hnodup (fun _ _ => emits_idleStep) fun _ _ _ => idleEvents_idleStep_of_ne
  rw [flatMap_filter]
  exact ((((emits_nil rfl rfl).trans hloop).of_eq rfl rfl).trans (emits_emit .roundReset)).of_eq rfl rfl

end Steps

/-! ## The whole round -/

section Round

variable {s u : State} {w k : Nat} {n : Node} {f : Frame}

/-- The connected nodes that are not idle when step 8 begins: those left in the arbitration unless evicted, and the
listeners. -/
theorem filter_not_idle_delivered (hquiet : busQuiet s = true) (hnodup : s.busConnected.Nodup)
    (harb : Arbitrated s w u) (hw : w ∈ eligibleSlots s) (hn : nodeAt s w = some n) (hself : n.id ∉ n.listeners) :
    ((delivered u w f).busConnected.filter fun k => !statusIs (delivered u w f) .idle k) =
      s.busConnected.filter fun k =>
        ((contendersAt s w (wonAtOf s w)).contains k && !(k == w && reachesLimit s w n f))
          || (activeListeners s w).contains k := by
  obtain ⟨st, hm⟩ := exists_status_of_leftAt harb.left hn
  have hnodup' : u.busConnected.Nodup := harb.left.connected.symm ▸ hnodup
  have hlimit := reachesLimit_of_leftAt (n := n) (w := w) (f := f) harb.left st
  have hlisteners := activeListeners_of_leftAt harb.left
  have hconnected : (delivered u w f).busConnected =
      s.busConnected.filter fun k => !(k == w && reachesLimit s w n f) := by
    rw [delivered_connected hm hself hnodup', hlimit, harb.left.connected]
    cases reachesLimit s w n f <;> simp [beq_eq_decide]
  rw [hconnected, List.filter_filter]
  refine List.filter_congr fun k hk => ?_
  obtain ⟨x, hx, hidle⟩ := idle_of_busQuiet hquiet hk
  have hu : nodeAt u k =
      some { x with status := if k ∈ contendersAt s w (wonAtOf s w) then .arbitrating else .idle } := by
    rw [harb.left.nodes, hx, ← hidle]
    split <;> rfl
  by_cases hkw : k = w
  · have hleft : w ∈ contendersAt s w (wonAtOf s w) := self_mem_contendersAt hw _
    have hout : w ∉ activeListeners s w := not_mem_activeListeners_self hn hself
    rw [hkw, statusIs, nodeAt_delivered_winner hm hself hnodup', hlimit]
    cases reachesLimit s w n f <;> simp [hleft, hout]
  · rw [← hlisteners]
    by_cases hlistens : k ∈ activeListeners u w
    · rw [statusIs, nodeAt_delivered_listener hm hself hnodup' hlistens, hu]
      simp [hkw, hlistens]
    · rw [statusIs, nodeAt_delivered_other hm hnodup' hlistens hkw, hu]
      by_cases hleft : k ∈ contendersAt s w (wonAtOf s w) <;> simp [hkw, hlistens, hleft]

/-- Lines 5 to 12 of the canonical order, read off the state before the round: below the limit an acknowledged frame
does not evict the winner. -/
theorem deliveryEvents_eq (harb : Arbitrated s w u) (st : Status) (hbelow : n.transmitErrors < s.cfgErrorLimit) :
    deliveryEvents s w n f = .arbitrationWon n.id (wonAtOf s w) :: (stepEvents u w { n with status := st } f ++
      (((s.busConnected.filter fun k =>
          ((contendersAt s w (wonAtOf s w)).contains k && !(k == w && reachesLimit s w n f))
            || (activeListeners s w).contains k).flatMap fun k => (idAt s k).map fun id => .statusChanged id .idle)
        ++ [.roundReset])) := by
  have hevicted : (decide (s.cfgErrorLimit ≤ n.transmitErrors + 1) && !acked s w f) = reachesLimit s w n f := by
    unfold reachesLimit
    cases acked s w f with
    | true => simpa [settleJob, popNext_eq] using hbelow
    | false => simp [settleJob]
  have hack : (!(activeListeners s w).isEmpty && frameValid f) = acked s w f := rfl
  simp only [deliveryEvents, stepEvents, hack, hevicted, acked_of_leftAt harb.left, reachesLimit_of_leftAt harb.left,
    activeListeners_of_leftAt harb.left, idAt_eq_of_sameButStatus (sameButStatus_of_leftAt harb.left), harb.wonAt,
    List.cons_append, List.nil_append, List.append_assoc]

end Round

/-! ## The obligation -/

/-- Settles O36: the events of arbitration, of steps 4 to 7 and of step 8, one after the other. -/
theorem roundEmitsCanonicalEvents : Obligations.RoundEmitsCanonicalEvents := by
  intro s w n f hready hselected hn hf hself hbelow
  obtain ⟨u, hnext, harb', hexec, -, hregisters, -⟩ := exec_round_of_selected hready hselected hn hf hself
  obtain ⟨-, hquiet, -, hnodup⟩ := hready
  have hw := hasSmallest_of_isSelected hselected
  have harb : Arbitrated s w u := ⟨leftAt_of_atArbitration harb'.left, harb'.winner, harb'.wonAt, harb'.bitIndex⟩
  obtain ⟨st, hm⟩ := exists_status_of_leftAt harb.left hn
  have hnodup' : u.busConnected.Nodup := harb.left.connected.symm ▸ hnodup
  refine ⟨_, hexec, congrArg Prod.snd hregisters, ?_⟩
  have harbitrate := emits_arbitrate (s := atArbitration s) hquiet hnodup hw hnext harb'
  have hdeliver := emits_delivered (f := f) hm hself hnodup'
  have hreset := emits_roundReset (s := delivered u w f) (delivered_nodup hm hself hnodup')
  rw [filter_not_idle_delivered hquiet hnodup harb hw.1 hn hself, idAt_delivered hm hf hself,
    idAt_eq_of_sameButStatus (sameButStatus_of_leftAt harb.left)] at hreset
  rw [idAt_of_nodeAt (s := atArbitration s) hn] at harbitrate
  obtain ⟨-, hevents⟩ := (harbitrate.trans hdeliver).trans hreset
  rw [deliveryEvents_eq harb st hbelow]
  refine hevents.trans ?_
  simp only [List.append_assoc, List.map_cons, List.map_nil, List.cons_append, List.nil_append]
  rfl

end Sys2Proof.Machine
end

section
/-!
The driver invariant (10_state.md R34, R35, R41). SETUP establishes what it says of the nodes, a round keeps it by its
outcome, and the other commands of the driver write no node and no connection.
-/

namespace Sys2Proof.Machine

section Slots

variable {s t : State} {w k : Nat} {m n : Node} {f : Frame}

/-- What the driver invariant says of the node in slot k (R34, R35). -/
structure SlotOk (s : State) (k : Nat) (n : Node) : Prop where
  evictedIff : n.status = .evicted ↔ k ∉ s.busConnected
  connectedBelow : k ∈ s.busConnected → n.transmitErrors < s.cfgErrorLimit
  evictedAt : n.status = .evicted → n.transmitErrors = s.cfgErrorLimit

theorem DriverInv.slotOk (h : DriverInv s) (hn : nodeAt s k = some n) : SlotOk s k n :=
  ⟨h.evictedIff k n hn, h.connectedBelow k n hn, h.evictedAt k n hn⟩

theorem SlotOk.of_eq (h : SlotOk s k n) (hlimit : t.cfgErrorLimit = s.cfgErrorLimit)
    (hconnected : k ∈ t.busConnected ↔ k ∈ s.busConnected) (hstatus : m.status = n.status)
    (herrors : m.transmitErrors = n.transmitErrors) : SlotOk t k m := by
  obtain ⟨hiff, hbelow, hat⟩ := h
  rw [← hstatus, ← hconnected] at hiff
  rw [← hlimit, ← herrors, ← hconnected] at hbelow
  rw [← hlimit, ← hstatus, ← herrors] at hat
  exact ⟨hiff, hbelow, hat⟩

/-- The driver invariant after SETUP. -/
theorem driverInv_of_slotOk (hinv : Inv t) (hsetup : t.drvSetupDone = true) (hquiet : busQuiet t = true)
    (hids : ∀ k k' n n', nodeAt t k = some n → nodeAt t k' = some n' → n.id = n'.id → k = k')
    (hslots : ∀ k n, nodeAt t k = some n → SlotOk t k n) : DriverInv t :=
  { hinv with
    quiet := hquiet
    idsDistinct := hids
    evictedIff := fun k n hn => (hslots k n hn).evictedIff
    connectedBelow := fun k n hn => (hslots k n hn).connectedBelow
    evictedAt := fun k n hn => (hslots k n hn).evictedAt
    noNodesBeforeSetup := fun hs => absurd (hsetup.symm.trans hs) Bool.noConfusion }

/-! ## A round (R178, R211, R222) -/

/-- One job adds at most one transmit error. -/
theorem settleJob_transmitErrors_le (ok : Bool) (n : Node) :
    (settleJob ok n).transmitErrors ≤ n.transmitErrors + 1 := by
  cases ok
  · exact le_rfl
  · simp [settleJob, popNext_eq]

/-- Eviction is at the limit exactly, since the winner was below it. -/
theorem RoundOutcome.slotOk_winner (h : RoundOutcome s w n f t) (hlimit : t.cfgErrorLimit = s.cfgErrorLimit)
    (hw : w ∈ s.busConnected) (hn : SlotOk s w n) (hm : nodeAt t w = some m) : SlotOk t w m := by
  obtain rfl := Option.some.inj (h.winner.symm.trans hm)
  have hbelow := hn.connectedBelow hw
  have hstep := settleJob_transmitErrors_le (acked s w f) n
  have hconnected := h.connected
  by_cases hreached : s.cfgErrorLimit ≤ (settleJob (acked s w f) n).transmitErrors
  · have hlast : reachesLimit s w n f = true := decide_eq_true hreached
    rw [hlast] at hconnected ⊢
    exact ⟨by simp [hconnected], by simp [hconnected], fun _ => by simp only [hlimit]; omega⟩
  · have hlast : reachesLimit s w n f = false := decide_eq_false hreached
    rw [hlast] at hconnected ⊢
    exact ⟨by simp [hconnected, hw], fun _ => hlimit ▸ Nat.lt_of_not_le hreached, nofun⟩

theorem RoundOutcome.slotOk_other (h : RoundOutcome s w n f t) (hlimit : t.cfgErrorLimit = s.cfgErrorLimit)
    (hother : k ≠ w) (hslots : ∀ x, nodeAt s k = some x → SlotOk s k x) (hm : nodeAt t k = some m) :
    SlotOk t k m := by
  have hconnected : k ∈ t.busConnected ↔ k ∈ s.busConnected := by
    rw [h.connected]
    split <;> simp [hother]
  rw [h.others k hother] at hm
  split at hm
  · obtain ⟨x, hx, rfl⟩ := Option.map_eq_some_iff.mp hm
    exact (hslots x hx).of_eq hlimit hconnected rfl rfl
  · exact (hslots m hm).of_eq hlimit hconnected rfl rfl

/-- How a round leaves the nodes: as they were, or with the outcome of a winner that held a frame. -/
theorem round_outcome (h : DriverInv s) (hround : round s = .next t) :
    (t.busConnected = s.busConnected ∧ ∀ k, nodeAt t k = nodeAt s k) ∨
      ∃ w n f, w ∈ s.busConnected ∧ nodeAt s w = some n ∧ RoundOutcome s w n f t := by
  obtain ⟨-, hquiet, -, hbody⟩ := round_eq_next_iff.mp hround
  obtain ⟨u, harb, -⟩ := andThen_eq_next_iff.mp hbody
  obtain ⟨⟨v, i, hleft⟩, helig⟩ := arbitrate_eq_next (s := atArbitration s) hquiet harb
  have hleft := leftAt_of_atArbitration hleft
  cases hwinner : u.seqWinner with
  | none =>
    rw [roundBody_of_no_winner harb hwinner] at hbody
    cases hbody
    exact .inl ⟨roundReset_connected.trans hleft.connected, nodeAt_roundReset_of_leftAt hquiet hleft⟩
  | some w =>
    obtain ⟨hw, heligible⟩ := mem_eligibleSlots_iff.mp (helig w hwinner)
    obtain ⟨n, f, hn, hf⟩ := exists_head_of_eligible heligible
    replace hn : nodeAt s w = some n := hn
    have hself := (h.listeners w n hn).1
    rw [roundBody_of_winner harb hwinner hleft hn hf hself] at hbody
    cases hbody
    exact .inr ⟨w, n, f, hw, hn, roundOutcome_delivered hquiet h.connectedNodup hleft hw hn hself⟩

theorem DriverInv.of_round (h : DriverInv s) (hround : round s = .next t) : DriverInv t := by
  have hinv := h.toInv.of_round hround
  have hwrites := roundWrites_round hround
  have hrest := hwrites.restOf_eq
  have hlimit : t.cfgErrorLimit = s.cfgErrorLimit := congrArg Rest.cfgErrorLimit hrest
  obtain ⟨hsetup, -, -, hbody⟩ := round_eq_next_iff.mp hround
  have hsetup : t.drvSetupDone = true := (congrArg Rest.drvSetupDone hrest).trans hsetup
  refine driverInv_of_slotOk hinv hsetup ?_ (fun k k' m m' hm hm' hid => ?_) fun k m hm => ?_
  · obtain ⟨u, rfl⟩ := exists_roundReset_of_roundBody hbody
    have hwired : Wired u := by
      refine ⟨fun k hk => ?_, roundReset_connected ▸ hinv.connectedNodup⟩
      have hnode := hinv.connectedNodes k (roundReset_connected.symm ▸ hk)
      rwa [nodeAt_roundReset, if_pos hk, Option.isSome_map] at hnode
    exact (roundReady_roundReset hsetup hwired).2.1
  · obtain ⟨n, hn, hevolves⟩ := hwrites.nodesEvolve.older hm
    obtain ⟨n', hn', hevolves'⟩ := hwrites.nodesEvolve.older hm'
    exact h.idsDistinct k k' n n' hn hn' (hevolves.id_eq.symm.trans (hid.trans hevolves'.id_eq))
  · obtain ⟨hconnected, hnodes⟩ | ⟨w, n, f, hw, hn, hout⟩ := round_outcome h hround
    · exact (h.slotOk ((hnodes k).symm.trans hm)).of_eq hlimit (by rw [hconnected]) rfl rfl
    · by_cases hk : k = w
      · subst hk
        exact hout.slotOk_winner hlimit hw (h.slotOk hn) hm
      · exact hout.slotOk_other hlimit hk (fun _ => h.slotOk) hm

end Slots

/-! ## The commands of the driver -/

section Commands

variable {s t : State} {i : Instr}

theorem DriverInv.of_ports (h : DriverInv s) (r : Result) (c : List Command) (a : List Arrival) (p q : Bool) :
    DriverInv { s with result := r, commands := c, arrivals := a, drvPauseReq := p, drvStopReq := q } := { h with }

theorem DriverInv.acceptArrival (h : DriverInv s) : DriverInv (acceptArrival s) := by
  rw [acceptArrival_eq]
  exact h.of_ports ..

theorem DriverInv.of_step (h : DriverInv s) (hstep : exec .step s = .next t) : DriverInv t := by
  have hinv := h.toInv.of_step hstep
  obtain ⟨u, hu, rfl⟩ := exec_step_eq_next_iff.mp hstep
  have hticked : DriverInv (setBusTick s s.drvTick) := { h.toInv.setBusTick, h with }
  exact { hinv, hticked.of_round hu with }

theorem DriverInv.of_run (h : DriverInv s) (hrun : exec .run s = .next t) : DriverInv t := by
  have hinv := h.toInv.of_run hrun
  obtain ⟨-, rfl⟩ | ⟨u, hu, rfl⟩ := exec_run_eq_next hrun
  · exact { hinv, h with }
  · exact { hinv, h.of_step hu with }

theorem driverInv_of_reset (hexec : exec .reset s = .next t) : DriverInv t := by
  have hinv := inv_of_reset hexec
  obtain ⟨-, rfl⟩ := execReset_eq_next_iff.mp hexec
  have h := driverInv_resetOf s.nodes.length
  exact { hinv, h with
    connectedBelow := fun _ _ _ hk => absurd hk List.not_mem_nil
    evictedAt := fun k _ hn => absurd ((h.noNodesBeforeSetup rfl k).symm.trans hn) nofun }

theorem DriverInv.of_setup {limit : Nat} {policy : DupIdPolicy} {specs : List NodeSpec} (h : DriverInv s)
    (hwf : ∀ n ∈ specs, n.wf = true) (hexec : exec (.setup limit policy specs) s = .next t) : DriverInv t := by
  have hinv := h.toInv.of_setup hwf hexec
  obtain ⟨hsetup, hlimit, hids, -, -, rfl⟩ := exec_setup_eq_next hexec
  have hnodes {k : Nat} {n : Node} (hn : nodeAt (placeSpecs 0 specs s) k = some n) :
      ∃ hk : k < specs.length, n = specNode specs[k] := by
    rw [nodeAt_placeSpecs, h.noNodesBeforeSetup hsetup] at hn
    split at hn
    next hk => exact ⟨hk, (Option.some.inj hn).symm⟩
    next => cases hn
  have hconnected (k : Nat) : k ∈ (placeSpecs 0 specs s).busConnected ↔ k < specs.length := by
    simp [placeSpecs, (h.beforeSetup hsetup).1]
  refine driverInv_of_slotOk hinv rfl ?_ (fun k k' m m' hm hm' hid => ?_) fun k m hm => ?_
  · rw [busQuiet, Bool.and_eq_true, List.all_eq_true]
    refine ⟨fun k hk => ?_, (Bool.and_eq_true_iff.mp h.quiet).2⟩
    have hlt := (hconnected k).mp hk
    exact statusIs_eq_true_iff.mpr ⟨specNode specs[k], nodeAt_placeSpecs.trans (dif_pos hlt), rfl⟩
  · obtain ⟨hk, rfl⟩ := hnodes hm
    obtain ⟨hk', rfl⟩ := hnodes hm'
    have hsame : (specs.map NodeSpec.id)[k]'(by simpa) = (specs.map NodeSpec.id)[k']'(by simpa) := by
      rw [List.getElem_map, List.getElem_map]
      exact hid
    exact (hids.getElem_inj_iff).mp hsame
  · obtain ⟨hk, rfl⟩ := hnodes hm
    have hmem := (hconnected k).mpr hk
    exact ⟨⟨nofun, fun hout => absurd hmem hout⟩, fun _ => hlimit, nofun⟩

theorem wf_of_readCommand {c : Command} (h : readCommand c = .ok i) : i.wf = true := by
  cases hdecode : decode c.op c.args with
  | error e => simp [readCommand_of_reject hdecode] at h
  | ok j =>
    rw [readCommand_of_decode hdecode] at h
    split_ifs at h with hwf
    cases h
    exact hwf

theorem DriverInv.of_exec (h : DriverInv s) (hwf : i.wf = true) (hlevel : nodeLevel i = false)
    (hexec : exec i s = .next t) : DriverInv t := by
  obtain (rfl | rfl | rfl) | ⟨limit, policy, specs, rfl⟩ | ⟨r, p, q, rfl⟩ :=
    exec_eq_next_of_not_nodeLevel hlevel hexec
  · exact driverInv_of_reset hexec
  · exact h.of_step hexec
  · exact h.of_run hexec
  · exact h.of_setup (List.all_eq_true.mp hwf) hexec
  · exact h.of_ports r s.commands s.arrivals p q

end Commands

/-! ## The obligation -/

/-- Settles O49: the strap keeps the node-level commands from being issued after SETUP, and a command of the driver
keeps the driver invariant. -/
theorem driverStepKeepsDriverInvariant : Obligations.DriverStepKeepsDriverInvariant := by
  intro s t h hdriver hstep
  obtain ⟨-, rfl⟩ | ⟨i, u, hfetch, hexec⟩ := step_eq_next_iff_fetch.mp hstep
  · exact h
  · obtain ⟨-, rfl, rfl⟩ | ⟨-, -, hdirect, c, rest, -, hread, rfl⟩ := fetch_eq_issue_iff.mp hfetch
    · exact h.acceptArrival.of_run hexec
    · have hlevel : nodeLevel i = false :=
        hdriver.elim (fun hstrap => nodeLevel_of_not_direct hdirect hstrap.1 hstrap.2) fun hnone => hnone i _ hfetch
      exact (h.of_ports s.result rest s.arrivals s.drvPauseReq s.drvStopReq).of_exec (wf_of_readCommand hread) hlevel
        hexec

end Sys2Proof.Machine
end
